-- ==== Sys2Proof/Word.lean ====
section
/-! DEFINITION. The value types of the block: wire levels and flags, bytes, command words, samples
(spec/00_scope.md rules R6 and R8). Bits are numbered from 0 at the least significant bit and every
value is unsigned. -/

namespace Sys2Proof

/-- One bit: a wire level or a one-bit flag; `true` is 1, `false` is 0 (R8, R13). -/
abbrev Level := Bool

/-- One 8-bit transfer unit (R6, R40). -/
abbrev Byte := BitVec 8

/-- A 10-bit sample or response, the format `RSP10` (R6, R45, R52). -/
abbrev Sample := BitVec 10

/-- A 16-bit command word, the format `CMD16` (R45, R48). -/
abbrev Cmd := BitVec 16

end Sys2Proof
end

