-- ==== Sys2Proof/Syntax.lean ====
section
/-! DEFINITION. The six operations of the block, one constructor per row of spec/opcode_table.json
(spec/00_scope.md rule R2, spec/30_encoding.md rule R49). The pseudo-operations of rule R57 expand to
these and stand in Machine/Pseudo.lean. -/

namespace Sys2Proof

/-- An operation the host can issue (R49). -/
inductive Instr where
  /-- `SELECT`: drive the select line low (R76). -/
  | select
  /-- `DESELECT`: drive the select line high (R77). -/
  | deselect
  /-- `TRANSMIT imm8`: hand one byte to the shift path (R62). -/
  | transmit (imm8 : Byte)
  /-- `RECEIVE rd`: wait for the byte in flight, return it and store it where `rd` says (R63, R51). -/
  | receive (rd : BitVec 2)
  /-- `ASSEMBLE`: join `B2` and `B3` into the sample (R79). -/
  | assemble
  /-- `CONVERT`: the whole conversion frame as one operation (R80). -/
  | convert
deriving DecidableEq, Repr

end Sys2Proof
end

