-- ==== Sys2Proof/WellFormed.lean ====
section
/-! DEFINITION. Which operations the command word can name (spec/30_encoding.md rules R50, R51, R53):
the one operand value without meaning is `rd` = 1. -/

namespace Sys2Proof

/-- `rd` names a destination: 0 discards, 2 is `B2`, 3 is `B3`; 1 is reserved (R51). -/
def rdLegal (rd : BitVec 2) : Bool := rd != 1#2

/-- Every operand has a value the spec gives a meaning to. All 256 values of `imm8` are legal (R50). -/
def Instr.wellFormed : Instr → Bool
  | .select => true
  | .deselect => true
  | .transmit _ => true
  | .receive rd => rdLegal rd
  | .assemble => true
  | .convert => true

end Sys2Proof
end

