-- ==== Sys2Proof/Decode.lean ====
section
/-! DEFINITION. The decoder and the encoder of the command word `CMD16`, and the textual form of an
operation (spec/30_encoding.md rules R48 to R56; spec/90_conflicts.md C10). -/

namespace Sys2Proof

/-! ### The fields of the command word (R48) -/

/-- Bits 15:12, the operation code. -/
def opField (w : Cmd) : BitVec 4 := w.extractLsb' 12 4

/-- Bits 11:10, which must be 0. -/
def zField (w : Cmd) : BitVec 2 := w.extractLsb' 10 2

/-- Bits 9:8, the destination of `RECEIVE`. -/
def rdField (w : Cmd) : BitVec 2 := w.extractLsb' 8 2

/-- Bits 7:0, the byte operand of `TRANSMIT`. -/
def imm8Field (w : Cmd) : Byte := w.extractLsb' 0 8

/-! ### The rows of the operation table: match and mask (R49) -/

def rowSelect : Cmd × Cmd := (0x1000#16, 0xFFFF#16)
def rowDeselect : Cmd × Cmd := (0x2000#16, 0xFFFF#16)
def rowTransmit : Cmd × Cmd := (0x3000#16, 0xFF00#16)
def rowReceive : Cmd × Cmd := (0x4000#16, 0xFCFF#16)
def rowAssemble : Cmd × Cmd := (0x5000#16, 0xFFFF#16)
def rowConvert : Cmd × Cmd := (0x6000#16, 0xFFFF#16)

/-- The six rows in the table's order. -/
def opcodeRows : List (Cmd × Cmd) :=
  [rowSelect, rowDeselect, rowTransmit, rowReceive, rowAssemble, rowConvert]

/-- "A word `w` selects the row when `(w & mask) = match`" (R49). -/
def selectsRow (w : Cmd) (row : Cmd × Cmd) : Bool := w &&& row.2 == row.1

/-- No word selects both rows: their match words differ in a bit that both masks keep. -/
def rowsDisjoint (a b : Cmd × Cmd) : Bool := (a.1 ^^^ b.1) &&& a.2 &&& b.2 != 0#16

/-! ### Decoding -/

/-- What a command word is: "every 16-bit word is either one of the six operations or
`ReservedCommand`" (R53). -/
inductive Decoded where
  | op (i : Instr)
  | reservedCommand
deriving DecidableEq, Repr

/-- The decoder of command words, total on all 65536 words. The `RECEIVE` row has the further
condition that `rd` is not 1 (R49, R51, C10). -/
def decode (w : Cmd) : Decoded :=
  if selectsRow w rowSelect then .op .select
  else if selectsRow w rowDeselect then .op .deselect
  else if selectsRow w rowTransmit then .op (.transmit (imm8Field w))
  else if selectsRow w rowReceive && rdLegal (rdField w) then .op (.receive (rdField w))
  else if selectsRow w rowAssemble then .op .assemble
  else if selectsRow w rowConvert then .op .convert
  else .reservedCommand

/-- The command word among the table's bits: one 16-bit word, its bits above `nbits` 0. -/
def tableWord (nbits w : Nat) : Cmd := BitVec.ofNat 16 (w % 2 ^ nbits)

/-- The operation read from a word whose bits are numbered as spec/opcode_table.json numbers them. -/
def decodeTableWord (nbits w : Nat) : Option Instr :=
  match decode (tableWord nbits w) with
  | .op i => some i
  | .reservedCommand => none

/-! ### Encoding -/

/-- A command word from its fields, `z` = 0 (R48). -/
def cmd16 (op : BitVec 4) (rd : BitVec 2) (imm8 : Byte) : Cmd := op ++ 0#2 ++ rd ++ imm8

/-- The operation codes in the order of the table; 0 and 7 to 15 are reserved (R49). -/
def Instr.opcode : Instr → BitVec 4
  | .select => 0x1#4
  | .deselect => 0x2#4
  | .transmit _ => 0x3#4
  | .receive _ => 0x4#4
  | .assemble => 0x5#4
  | .convert => 0x6#4

/-- The word that names an operation; a field the operation does not use is 0 (R48, R49). -/
def encode (i : Instr) : Cmd :=
  match i with
  | .select => cmd16 i.opcode 0#2 0#8
  | .deselect => cmd16 i.opcode 0#2 0#8
  | .transmit imm8 => cmd16 i.opcode 0#2 imm8
  | .receive rd => cmd16 i.opcode rd 0#8
  | .assemble => cmd16 i.opcode 0#2 0#8
  | .convert => cmd16 i.opcode 0#2 0#8

/-! ### The textual form, one operation a line (R56)

A line is a list of characters. The printer writes the spec's own spelling; the reader also takes any
number of spaces between words and a comment that a `;` starts (DESIGN CHOICE, safe, log entry 15). -/

/-- An upper-case hexadecimal digit. -/
def hexDigit (n : BitVec 4) : Char :=
  ['0', '1', '2', '3', '4', '5', '6', '7', '8', '9', 'A', 'B', 'C', 'D', 'E', 'F'].getD n.toNat '0'

/-- The value of an upper-case hexadecimal digit. -/
def hexValue (c : Char) : Option (BitVec 4) :=
  (List.range 16).findSome? fun n =>
    if hexDigit (BitVec.ofNat 4 n) = c then some (BitVec.ofNat 4 n) else none

def wordSelect : List Char := ['S', 'E', 'L', 'E', 'C', 'T']
def wordDeselect : List Char := ['D', 'E', 'S', 'E', 'L', 'E', 'C', 'T']
def wordTransmit : List Char := ['T', 'R', 'A', 'N', 'S', 'M', 'I', 'T']
def wordReceive : List Char := ['R', 'E', 'C', 'E', 'I', 'V', 'E']
def wordAssemble : List Char := ['A', 'S', 'S', 'E', 'M', 'B', 'L', 'E']
def wordConvert : List Char := ['C', 'O', 'N', 'V', 'E', 'R', 'T']

/-- `0xNN`, two hexadecimal digits. -/
def byteText (b : Byte) : List Char :=
  ['0', 'x', hexDigit (b.extractLsb' 4 4), hexDigit (b.extractLsb' 0 4)]

/-- The byte that `0xNN` spells. -/
def textByte : List Char → Option Byte
  | ['0', 'x', h, l] =>
    match hexValue h, hexValue l with
    | some hi, some lo => some (hi ++ lo)
    | _, _ => none
  | _ => none

/-- The textual form of an operation; `RECEIVE` with the reserved `rd` has none. -/
def Instr.text : Instr → Option (List Char)
  | .select => some wordSelect
  | .deselect => some wordDeselect
  | .transmit imm8 => some (wordTransmit ++ [' '] ++ byteText imm8)
  | .receive rd =>
    if rd = 0#2 then some wordReceive
    else if rd = 2#2 then some (wordReceive ++ [' ', 'B', '2'])
    else if rd = 3#2 then some (wordReceive ++ [' ', 'B', '3'])
    else none
  | .assemble => some wordAssemble
  | .convert => some wordConvert

/-- A line cut at its spaces, the comment left out; `acc` is the word being read, last letter first. -/
def splitLine (acc : List Char) : List Char → List (List Char)
  | [] => if acc.isEmpty then [] else [acc.reverse]
  | c :: cs =>
    if c = ';' then (if acc.isEmpty then [] else [acc.reverse])
    else if c = ' ' then (if acc.isEmpty then splitLine [] cs else acc.reverse :: splitLine [] cs)
    else splitLine (c :: acc) cs

/-- The operation one line spells, if it spells one (R56). -/
def readLine (line : List Char) : Option Instr :=
  match splitLine [] line with
  | [w] =>
    if w = wordSelect then some .select
    else if w = wordDeselect then some .deselect
    else if w = wordReceive then some (.receive 0#2)
    else if w = wordAssemble then some .assemble
    else if w = wordConvert then some .convert
    else none
  | [w, a] =>
    if w = wordTransmit then (textByte a).map .transmit
    else if w = wordReceive ∧ a = ['B', '2'] then some (.receive 2#2)
    else if w = wordReceive ∧ a = ['B', '3'] then some (.receive 3#2)
    else none
  | _ => none

end Sys2Proof
end

