-- ==== Sys2Proof/Config.lean ====
section
/-! DEFINITION. What one build of the block fixes, and what its environment is free to choose.
Parameters: spec/00_scope.md rule R6 and the closing table of spec/92_eei_decisions.md. Free choices:
the `MISO` draw (R68) and which of the two stepping agents moves next (R64, R86). Unspecified contents:
those of a register of the transport that nothing has written (R31). -/

namespace Sys2Proof

/-- The two agents that take steps: the sequencer SEQ and the shift engine ENG (R10). -/
inductive Agent where
  /-- SEQ, which executes the host's operations one at a time. -/
  | sequencer
  /-- ENG, which moves one byte over the wire, one clock edge a step. -/
  | engine
deriving DecidableEq, Repr, Inhabited

/-- The default of the parameter `CHANNEL_BYTE` (R6): the value of a build that says nothing else. -/
def Config.defaultChannelByte : Byte := 0x00#8

/-- FREE VALUE (DESIGN CHOICE, safe, log entry 3). The level the converter puts on `MISO` at the draw with this number,
counted from reset, where no answer was fixed in advance: an input "under no law" (R68). -/
opaque Config.misoDraw : Nat → Level

/-- FREE VALUE (DESIGN CHOICE, safe, log entry 4). The agent that moves at the choice with this number, counted from
reset, where no order was fixed in advance: ENG's steps "interleave freely with SEQ's" (R64). -/
opaque Config.freeTurn : Nat → Agent

/-- FREE VALUE (DESIGN CHOICE, safe, log entry 8). The bits `TSR` has while nothing has written it, "unspecified; never read
before written" (R31). -/
opaque Config.unwrittenTsr : Byte

/-- FREE VALUE (DESIGN CHOICE, safe, log entry 8). The bits `RSR` has while nothing has written it, "unspecified; never read
before written" (R31). -/
opaque Config.unwrittenRsr : Byte

/-- FREE VALUE (DESIGN CHOICE, safe, log entry 8). The bits `RXDR[7:0]` has while nothing has written it, "unspecified"
(R31). -/
opaque Config.unwrittenRxdr : Byte

/-- OPEN PARAMETER (DESIGN CHOICE, safe) read by no rule: how many bits `RXDR` has above bit 7 (R6, R23; log entry 5). -/
opaque Config.drExtraBits : Nat

/-- OPEN PARAMETER (DESIGN CHOICE, safe) read by no rule: `DR_WIDTH`, "OPEN, at least 8" (R6, R23; log entry 5). -/
def Config.drWidth : Nat := 8 + Config.drExtraBits

/-- OPEN PARAMETER (DESIGN CHOICE, safe) read by no rule: the clock prescale (R6, R74; log entry 5). -/
opaque Config.sclkPrescale : Nat

/-- OPEN PARAMETER (DESIGN CHOICE, safe) read by no rule: the clock divisor (R6, R74; log entry 5). -/
opaque Config.sclkDivisor : Nat

end Sys2Proof
end

