-- ==== Sys2Proof/Machine/State.lean ====
section
/-! DEFINITION. The state of the block as plain data, its event trace, the reasons a step can stop, and
the state after reset (spec/10_state.md rules R13 to R31, spec/20_memory.md rule R42,
spec/60_exceptions.md rules R91 and R92, spec/70_reset_and_hazards.md rule R101). -/

namespace Sys2Proof.Machine

/-- An observable event (R42). -/
inductive Event where
  /-- `CsLow`: `CS_N` driven to 0, even if it was already 0. -/
  | csLow
  /-- `CsHigh`: `CS_N` driven to 1, even if it was already 1. -/
  | csHigh
  /-- `Tx(b)`: a byte accepted into the shift path. -/
  | tx (b : Byte)
  /-- `Rise(mosi, miso)`: a rising edge of `SCLK`, with both data levels at it. -/
  | rise (mosi miso : Level)
  /-- `Fall`: a falling edge of `SCLK`. -/
  | fall
  /-- `Rx(b)`: a byte returned by a `RECEIVE`. -/
  | rx (b : Byte)
  /-- `Result(v)`: a sample returned by `ASSEMBLE` or `CONVERT`. -/
  | result (v : Sample)
deriving DecidableEq, Repr

/-- The faults of the block: none. "There is no fourth outcome; in particular there is no fault
outcome, because nothing the source describes makes the hardware trap" (R91, R89). -/
inductive Fault : Type
deriving DecidableEq, Repr

/-- The reasons a step is refused: the closed list of R92, and the marker of an arm without meaning.
Each refusal of R92 is SAFE: "the real hardware does something in each of these cases (what, no source
says) and the model says nothing". -/
inductive Refusal where
  /-- Raised by an arm of `exec` that has no meaning yet; no arm raises it now. SAFE. -/
  | notModelled (mnemonic : String)
  /-- `ReservedCommand`: the word at the command port names no operation (R53). SAFE. -/
  | reservedCommand
  /-- `TransmitWhilePending`: `TRANSMIT` while a byte is in flight or unread (R62, U2). SAFE. -/
  | transmitWhilePending
  /-- `ReceiveWithoutTransmit`: `RECEIVE` with no byte in flight or unread, that is with `BUSY = 0` and
  `RX_FRESH = 0`, and in no other case (R63, U1). SAFE. -/
  | receiveWithoutTransmit
  /-- `UnwrittenRegister`: `ASSEMBLE` before `B2` and `B3` are both written (R79, U9), alone: R92 names no
  other operation that raises it. SAFE. -/
  | unwrittenRegister
  /-- `ConvertNotIdle`: `CONVERT` while the block is not idle (R80, U11). SAFE. -/
  | convertNotIdle
deriving DecidableEq, Repr

/-- The state. The first group is the state of the block (R13: sixteen items, of which `MISO` is an
input and no state). `none` in a register is the spec's own content of "a register that nothing has
written since reset"; "It is not a value" (R9). The second group is the parameter of the build, the
third the environment (the host's operations, the converter's answers, the order of the agents), the
fourth what an observer records and the block never reads. -/
structure State where
  /-- `CS_N`, the chip-select line, active low: `false` is asserted (R18). -/
  csN : Level
  /-- `SCLK`, the clock line, idle low (R19). -/
  sclk : Level
  /-- `MOSI`, the data-out line (R20). -/
  mosi : Level
  /-- `TXDR`, the output register (R22). -/
  txdr : Option Byte
  /-- `RXDR[7:0]`, the received-data register; bits above 7 are not modelled (R23). -/
  rxdr : Option Byte
  /-- `TSR`, the transmit half of the shift path (R24). -/
  tsr : Option Byte
  /-- `RSR`, the receive half of the shift path (R25). -/
  rsr : Option Byte
  /-- `BITCNT`, the completed clock cycles of the byte in flight, 0 to 8 (R26). -/
  bitcnt : BitVec 4
  /-- `BUSY`: a byte is in the shift path (R16). -/
  busy : Level
  /-- `RX_FRESH`: `RXDR` holds a byte that no `RECEIVE` has returned (R17). -/
  rxFresh : Level
  /-- `B2`, general register 2, `secondByte` (R14). -/
  b2 : Option Byte
  /-- `B3`, general register 3, `thirdByte` (R14). -/
  b3 : Option Byte
  /-- `RESULT`, the last assembled sample (R27). -/
  result : Option Sample
  /-- `SEQ`, the sub-step of the `CONVERT` in progress, 0 if there is none (R28). -/
  seq : BitVec 4
  /-- `REFUSED`, a mark of the model and not of the hardware (R29, R92). DEDUCED, safe (log entry 7): no step
  sets it, `observe` does. -/
  refused : Bool
  /-- `CHANNEL_BYTE`, a parameter of the build, constant for a run (R6, D18). DESIGN CHOICE, safe
  (log entry 6). -/
  channelByte : Byte
  /-- MODEL'S FIELD: the words of the operations the host has still to see completed, in the order it
  issues them; the head is at the command port until it completes (R10, R32). DESIGN CHOICE, safe (log
  entry 2). -/
  hostOps : List Cmd
  /-- MODEL'S FIELD: the answers of the converter fixed in advance, next first (R68).
  DESIGN CHOICE, safe (log entry 3). -/
  misoIn : List Level
  /-- MODEL'S FIELD: how many times `MISO` has been drawn, the index of the free value (log entry 3). -/
  drawCount : Nat
  /-- MODEL'S FIELD: the order of the agents fixed in advance, next first (R64).
  DESIGN CHOICE, safe (log entry 4). -/
  turnIn : List Agent
  /-- MODEL'S FIELD: how many times an agent was chosen, the index of the free value (log entry 4). -/
  turnCount : Nat
  /-- The event trace, oldest first; an observer's record (R42). -/
  trace : List Event
  /-- The responses returned to the host, oldest first, one for each completed operation; `none` is
  "returns no data" (R9, R52; log entry 2). -/
  responses : List (Option Sample)
deriving DecidableEq, Repr

/-- The state after reset (R31, R101, R102). The levels are the spec's own
decision, UNVERIFIED on hardware and unsafe (log entry 11). The trace starts empty; the environment's lists are
empty, which fixes no operation, no answer and no order. -/
def State.reset : State where
  csN := true
  sclk := false
  mosi := false
  txdr := none
  rxdr := none
  tsr := none
  rsr := none
  bitcnt := 0#4
  busy := false
  rxFresh := false
  b2 := none
  b3 := none
  result := none
  seq := 0#4
  refused := false
  channelByte := Config.defaultChannelByte
  hostOps := []
  misoIn := []
  drawCount := 0
  turnIn := []
  turnCount := 0
  trace := []
  responses := []

end Sys2Proof.Machine
end

