-- ==== Sys2Proof/Machine/Flags.lean ====
section
/-! DEFINITION. What the operations ask of the flags `BUSY` and `RX_FRESH` and of the select line: their
preconditions (spec/10_state.md rules R16, R17; spec/40_serial_transport.md rules R62, R63;
spec/41_converter_protocol.md rule R80). The flags are written in Machine/Ops.lean, Machine/Engine.lean
and Machine/Transport.lean. -/

namespace Sys2Proof.Machine

/-- A byte is in flight or has completed unread: what `RECEIVE` needs (R63) and `TRANSMIT` must not
find (R62). -/
def State.bytePending (s : State) : Bool := s.busy || s.rxFresh

/-- The block is idle, as `CONVERT` requires: `CS_N = 1`, `BUSY = 0`, `RX_FRESH = 0` (R80). -/
def State.idle (s : State) : Bool := s.csN && !s.bytePending

end Sys2Proof.Machine
end

