-- ==== Sys2Proof/Machine/Operands.lean ====
section
/-! DEFINITION. The constants, the bit orders (UNVERIFIED on hardware, log entry 12) and the arithmetic of the block, and the destinations of
`RECEIVE` (spec/00_scope.md rule R6, spec/20_memory.md rules R35 to R37, spec/30_encoding.md rules R46,
R47, R51, R52, spec/41_converter_protocol.md rules R78 and R84). -/

namespace Sys2Proof.Machine

/-- `START_BYTE`, fixed (R6). -/
def startByte : Byte := 0x01#8

/-- `FILLER_BYTE`, fixed (R6). -/
def fillerByte : Byte := 0x00#8

/-- `STATUS_MASK` at the width of the sample, fixed (R6, R78). -/
def statusMask : Sample := 0x003#10

/-- `HIGH_SHIFT`, fixed (R6). -/
def highShift : Nat := 8

/-- `zext_10` (R8, R52). -/
def zext10 (b : Byte) : Sample := b.setWidth 10

/-- The result assembler, a pure combinational function (R78). -/
def assembleBytes (b2 b3 : Byte) : Sample := ((zext10 b2 &&& statusMask) <<< highShift) ||| zext10 b3

/-- Shift in: `v[6:0] : m` (R65, R84). -/
def shiftIn (v : Byte) (m : Level) : Byte := v.extractLsb' 0 7 ++ BitVec.ofBool m

/-- Shift out: `v[6:0] : 0` (R66, R84). -/
def shiftOut (v : Byte) : Byte := v.extractLsb' 0 7 ++ 0#1

/-- Bit 7, the one on the wire first (R37, R50). -/
def topBit (v : Byte) : Level := v.getLsbD 7

/-- The eight levels that carry a byte, in the order of the clock cycles: most significant bit first,
in both directions (R37). -/
def bitsOnWire (b : Byte) : List Level :=
  [b.getLsbD 7, b.getLsbD 6, b.getLsbD 5, b.getLsbD 4, b.getLsbD 3, b.getLsbD 2, b.getLsbD 1, b.getLsbD 0]

/-- The three bytes of `FRAME_OUT`, first to last (R35, R46). -/
def frameOut (channelByte : Byte) : List Byte := [startByte, channelByte, fillerByte]

/-- The levels of `MOSI` at the 24 rising edges of a frame (R46). -/
def frameOutBits (channelByte : Byte) : List Level := (frameOut channelByte).flatMap bitsOnWire

/-- `s[9:0]` read off the 24 levels of `FRAME_IN`: `s[9]` is sampled at cycle 15, `s[8]` at cycle 16 and
`s[7]` to `s[0]` at cycles 17 to 24; the other levels are ignored (R47). Most significant bit first. -/
def frameInSampleBits (cycles : List Level) : List Level := cycles.drop 14

/-- The ten levels of a sample, most significant bit first (R36, R47). -/
def sampleBits (v : Sample) : List Level :=
  [v.getLsbD 9, v.getLsbD 8, v.getLsbD 7, v.getLsbD 6, v.getLsbD 5, v.getLsbD 4, v.getLsbD 3,
    v.getLsbD 2, v.getLsbD 1, v.getLsbD 0]

/-- Where `RECEIVE` puts the byte besides returning it: 2 is `B2`, 3 is `B3`, 0 discards (R51). The
reserved `rd` = 1 is refused before this is reached. -/
def State.latch (rd : BitVec 2) (v : Byte) (s : State) : State :=
  if rd = 2#2 then { s with b2 := some v }
  else if rd = 3#2 then { s with b3 := some v }
  else s

end Sys2Proof.Machine
end

