-- ==== Sys2Proof/Machine/Ops.lean ====
section
/-! DEFINITION. The shared operations of the model: the event trace, the command port, the environment's
choices, the select line, the acceptance of a byte into the shift path, and the outcome of an operation
that may refuse or hold (spec/00_scope.md rules R9, R10; spec/60_exceptions.md rules R91 to R93).
The block has no memory (R33) and no exception (R89), so there is no memory access, no exception entry
and no return from one here. -/

namespace Sys2Proof.Machine

/-- `emit`: appends an event to the trace (R9, R42). -/
def State.emit (e : Event) (s : State) : State := { s with trace := s.trace ++ [e] }

/-- The operation at the command port completes with the response `v`: the host receives it and its
next operation comes to the port (R9, R10, R52). -/
def State.complete (v : Option Sample) (s : State) : State :=
  { s with hostOps := s.hostOps.tail, responses := s.responses ++ [v] }

/-- The word at the command port, if the host has issued one (R10, R15). -/
def State.command (s : State) : Option Cmd := s.hostOps.head?

/-- The mark `REFUSED` set: what an observer records when a step is refused. No operation clears it (R29,
R92; log entry 7). -/
def State.markRefused (s : State) : State := { s with refused := true }

/-! ### The free choices -/

/-- `draw MISO`: the level the converter answers with, fixed in advance or free (R9, R68). -/
def State.misoLevel (s : State) : Level :=
  match s.misoIn with
  | m :: _ => m
  | [] => Config.misoDraw s.drawCount

/-- The answer drawn is used up: every rising edge draws its own (R68). -/
def State.drawn (s : State) : State :=
  { s with misoIn := s.misoIn.tail, drawCount := s.drawCount + 1 }

/-- The agent that moves next where both may, fixed in advance or free (R64, R86). -/
def State.turn (s : State) : Agent :=
  match s.turnIn with
  | a :: _ => a
  | [] => Config.freeTurn s.turnCount

/-- The choice of agent is used up. While `BUSY = 0` ENG has no step (R64), so there is nothing to
choose and no choice is taken. -/
def State.passTurn (s : State) : State :=
  if s.busy then { s with turnIn := s.turnIn.tail, turnCount := s.turnCount + 1 } else s

/-- The step is ENG's: it has one, and the choice falls on it (R64). -/
def State.engineMoves (s : State) : Bool := s.busy && s.turn == .engine

/-! ### The bits of the transport's registers

`none` "is not a value" (R9). In every state a run reaches, a rule of ENG or a `RECEIVE` whose precondition is
met finds a value (R31, R63); where it would not, it is carried out on bits of which nothing is known
(DESIGN CHOICE, safe, log entry 8). -/

/-- The bits of `TSR` that an edge shifts; a free value while nothing has written it (log entry 8). -/
def State.tsrBits (s : State) : Byte := s.tsr.getD Config.unwrittenTsr

/-- The bits of `RSR` that an edge shifts; a free value while nothing has written it (log entry 8). -/
def State.rsrBits (s : State) : Byte := s.rsr.getD Config.unwrittenRsr

/-- `RXDR[7:0]` as a `RECEIVE` reads it; a free value while nothing has written it (log entry 8). -/
def State.rxdrBits (s : State) : Byte := s.rxdr.getD Config.unwrittenRxdr

/-! ### Effects on the wires and the shift path -/

/-- The select line driven low, with its event (R76). -/
def State.selectLow (s : State) : State := State.emit .csLow { s with csN := false }

/-- The select line driven high, with its event (R77). -/
def State.selectHigh (s : State) : State := State.emit .csHigh { s with csN := true }

/-- A byte accepted into the free shift path: the body of `TRANSMIT` (R62). -/
def State.acceptByte (b : Byte) (s : State) : State :=
  State.emit (.tx b)
    { s with
      txdr := some b
      tsr := some b
      rsr := some 0x00#8
      bitcnt := 0#4
      mosi := topBit b
      busy := true }

/-- The byte `v` returned: the body of `RECEIVE` after its hold (R63). -/
def State.returnByte (rd : BitVec 2) (v : Byte) (s : State) : State :=
  State.emit (.rx v) (State.latch rd v { s with rxFresh := false })

/-! ### The outcome of an operation -/

/-- What an operation, or a sub-step of `CONVERT`, comes to: the three outcomes of R91. -/
inductive Attempt where
  /-- `refuse(<Reason>)`: no meaning in this state (R92). -/
  | refuse (r : Refusal)
  /-- A hold: SEQ has no step until `BUSY = 0` (R93). -/
  | hold
  /-- Carried out, with the response and the state after it. -/
  | done (rsp : Option Sample) (after : State)
deriving DecidableEq, Repr

/-- An operation of the host from the state `s`: in a hold the state stays as it is and the word stays at
the command port (DESIGN CHOICE, safe, log entry 1); once carried out, the operation completes. -/
def Attempt.asOperation (a : Attempt) (s : State) : Host.Outcome State Fault Refusal :=
  match a with
  | .refuse r => .refused r
  | .hold => .next s
  | .done rsp t => .next (t.complete rsp)

/-- A sub-step of `CONVERT` from the state `s`: once carried out `SEQ` moves on; after sub-step 9 it is 0
and the operation completes. "The responses of the inner operations are not returned to the host; only
the final `RESULT` is" (R80, R81). -/
def Attempt.asSubStep (a : Attempt) (s : State) : Host.Outcome State Fault Refusal :=
  match a with
  | .refuse r => .refused r
  | .hold => .next s
  | .done rsp t =>
    if s.seq = 9#4 then .next (State.complete rsp { t with seq := 0#4 })
    else .next { t with seq := s.seq + 1#4 }

end Sys2Proof.Machine
end

