-- ==== Sys2Proof/Machine/Transport.lean ====
section
/-! DEFINITION. The Serial Transport: `TRANSMIT` and `RECEIVE` (spec/40_serial_transport.md rules R61 to
R63). Neither looks at the value of a byte, and neither reads or writes `CS_N` (R61). -/

namespace Sys2Proof.Machine

/-- The byte primitive `transmitByte` (R62). -/
def transmitByte (b : Byte) (s : State) : Attempt :=
  if s.bytePending then .refuse .transmitWhilePending else .done none (s.acceptByte b)

/-- The byte primitive `receiveByte`, which holds while `BUSY = 1`, with no timeout (R63, R72). Its one
refusal is the one R63 writes: no byte is in flight or unread. -/
def receiveByte (rd : BitVec 2) (s : State) : Attempt :=
  if !s.bytePending then .refuse .receiveWithoutTransmit
  else if s.busy then .hold
  else .done (some (zext10 s.rxdrBits)) (s.returnByte rd s.rxdrBits)

/-- `TRANSMIT imm8` (R62). -/
def execTransmit (imm8 : Byte) (s : State) : Host.Outcome State Fault Refusal :=
  (transmitByte imm8 s).asOperation s

/-- `RECEIVE rd` (R63). The reserved `rd` = 1 names no operation (R51, R53), and the decoder gives it to
no word. -/
def execReceive (rd : BitVec 2) (s : State) : Host.Outcome State Fault Refusal :=
  if rd = 1#2 then .refused .reservedCommand else (receiveByte rd s).asOperation s

end Sys2Proof.Machine
end

