-- ==== Sys2Proof/Machine/Protocol.lean ====
section
/-! DEFINITION. The Converter Protocol: `SELECT`, `DESELECT`, `ASSEMBLE`, `CONVERT` and the sub-steps of
`CONVERT` (spec/41_converter_protocol.md rules R75 to R83). -/

namespace Sys2Proof.Machine

/-- `assertSelect` (R76): no precondition. -/
def assertSelect (s : State) : Attempt := .done none s.selectLow

/-- `deassertSelect` (R77): no precondition. -/
def deassertSelect (s : State) : Attempt := .done none s.selectHigh

/-- Step 6 of the source, "Assemble" (R79): `B2` and `B3` must both hold a value. -/
def assembleResult (s : State) : Attempt :=
  match s.b2, s.b3 with
  | some b2, some b3 =>
    .done (some (assembleBytes b2 b3))
      (State.emit (.result (assembleBytes b2 b3)) { s with result := some (assembleBytes b2 b3) })
  | _, _ => .refuse .unwrittenRegister

/-- `SELECT` (R76). -/
def execSelect (s : State) : Host.Outcome State Fault Refusal := (assertSelect s).asOperation s

/-- `DESELECT` (R77). -/
def execDeselect (s : State) : Host.Outcome State Fault Refusal := (deassertSelect s).asOperation s

/-- `ASSEMBLE` (R79). -/
def execAssemble (s : State) : Host.Outcome State Fault Refusal := (assembleResult s).asOperation s

/-- `CONVERT` (R80, R81): accepted when the block is idle; on acceptance `SEQ` becomes 1 and the sub-steps
follow, each a step of its own (DEDUCED, safe, log entry 16). The word stays at the command port until sub-step 9 completes it. -/
def execConvert (s : State) : Host.Outcome State Fault Refusal :=
  if s.idle then .next { s with seq := 1#4 } else .refused .convertNotIdle

/-- What sub-step `k` of `CONVERT` does: the table of R81. -/
def convertAction (k : BitVec 4) (s : State) : Option Attempt :=
  match k.toNat with
  | 1 => some (assertSelect s)
  | 2 => some (transmitByte startByte s)
  | 3 => some (receiveByte 0#2 s)
  | 4 => some (transmitByte s.channelByte s)
  | 5 => some (receiveByte 2#2 s)
  | 6 => some (transmitByte fillerByte s)
  | 7 => some (receiveByte 3#2 s)
  | 8 => some (deassertSelect s)
  | 9 => some (assembleResult s)
  | _ => none

/-- The step of SEQ while a `CONVERT` is in progress (R81). `SEQ` runs 0 to 9 (R28); for any other number
there is no sub-step (DEDUCED, safe, log entry 8). -/
def convertStep (s : State) : Host.Outcome State Fault Refusal :=
  match convertAction s.seq s with
  | some a => a.asSubStep s
  | none => .next s

end Sys2Proof.Machine
end

