-- ==== Sys2Proof/Machine/Dispatch.lean ====
section
/-! DEFINITION. The meaning of each operation: one arm per row of the operation table
(spec/30_encoding.md rule R49). -/

namespace Sys2Proof.Machine

/-- The step of SEQ for the operation at the command port, while no `CONVERT` is in progress. -/
def exec (i : Instr) (s : State) : Host.Outcome State Fault Refusal :=
  match i with
  | .select => Sys2Proof.Machine.execSelect s
  | .deselect => Sys2Proof.Machine.execDeselect s
  | .transmit imm8 => Sys2Proof.Machine.execTransmit imm8 s
  | .receive rd => Sys2Proof.Machine.execReceive rd s
  | .assemble => Sys2Proof.Machine.execAssemble s
  | .convert => Sys2Proof.Machine.execConvert s

end Sys2Proof.Machine
end

