-- ==== Sys2Proof/Machine/Engine.lean ====
section
/-! DEFINITION. The shift engine ENG: one step per clock edge, SPI mode 0 (spec/40_serial_transport.md
rules R64 to R68). No edge is ever refused or held: refusals and holds are outcomes of the host's operations
(R91 to R93), while "ENG has a step exactly when `BUSY = 1`" (R64). -/

namespace Sys2Proof.Machine

/-- Rising edge: the level of `MISO` is drawn and shifted in (R65). -/
def engineRise (s : State) : State :=
  State.emit (.rise s.mosi s.misoLevel)
    { s.drawn with sclk := true, rsr := some (shiftIn s.rsrBits s.misoLevel) }

/-- Falling edge of cycles 1 to 7: the next bit is driven (R66). -/
def engineFall (s : State) : State :=
  State.emit .fall
    { s with
      sclk := false
      bitcnt := s.bitcnt + 1#4
      tsr := some (shiftOut s.tsrBits)
      mosi := topBit (shiftOut s.tsrBits) }

/-- Falling edge of cycle 8: the byte completes, `RXDR` takes the content of `RSR`, and `BUSY` clears
(R67). -/
def engineLast (s : State) : State :=
  State.emit .fall
    { s with
      sclk := false
      bitcnt := 8#4
      rxdr := s.rsr
      rxFresh := true
      busy := false }

/-- ENG's step: "exactly when `BUSY = 1`"; rising edge if `SCLK = 0`, else falling edge (R64). Where no
rule of ENG applies it has no step (DEDUCED, safe, log entry 8). -/
def engineEdge (s : State) : Host.Outcome State Fault Refusal :=
  if !s.busy then .next s
  else if !s.sclk then .next (engineRise s)
  else if s.bitcnt < 7#4 then .next (engineFall s)
  else if s.bitcnt = 7#4 then .next (engineLast s)
  else .next s

end Sys2Proof.Machine
end

