-- ==== Sys2Proof/Machine/Step.lean ====
section
/-! DEFINITION. One step of the whole block: a clock edge of ENG, a sub-step of the `CONVERT` in progress,
or the operation at the command port (spec/00_scope.md rule R10, spec/40_serial_transport.md rule R64,
spec/41_converter_protocol.md rule R82, spec/60_exceptions.md rule R91). -/

namespace Sys2Proof.Machine

/-- One step. ENG moves if it has a step and the choice falls on it. Else SEQ: while `SEQ` is not 0 "the
block accepts no operation from the host" (R82) and the next sub-step is tried; otherwise the operation
at the command port is decoded and tried. Where the host has issued nothing SEQ has no step and the
state stays (DESIGN CHOICE, safe, log entry 1). -/
def step (s : State) : Host.Outcome State Fault Refusal :=
  if s.engineMoves then engineEdge s.passTurn
  else if s.seq ≠ 0#4 then convertStep s.passTurn
  else match s.command with
    | none => .next s.passTurn
    | some w =>
      match decode w with
      | .reservedCommand => .refused .reservedCommand
      | .op i => exec i s.passTurn

/-- `s` with the host issuing the operation whose table bits are `w` next, so that the very next step of
the machine runs it: no `CONVERT` is in progress, and where a byte is in flight the choice of agent
falls on SEQ (DESIGN CHOICE, safe, log entry 9). -/
def State.withFetchWord (s : State) (nbits w : Nat) : State :=
  { s with
    hostOps := tableWord nbits w :: s.hostOps
    seq := 0#4
    turnIn := if s.busy then .sequencer :: s.turnIn else s.turnIn }

end Sys2Proof.Machine
end

