-- ==== Sys2Proof/Machine/Pseudo.lean ====
section
/-! DEFINITION. The pseudo-operations `XFER` and `FRAME` and their expansions (spec/30_encoding.md rule
R57). They have no command word of their own. -/

namespace Sys2Proof.Machine

/-- `XFER b, rd`: the source's "transmit/receive pair" (R57). -/
def xfer (b : Byte) (rd : BitVec 2) : List Instr := [.transmit b, .receive rd]

/-- `FRAME`: the Converter Protocol written with primitives (R57). -/
def frame (channelByte : Byte) : List Instr :=
  [.select] ++ xfer startByte 0#2 ++ xfer channelByte 2#2 ++ xfer fillerByte 3#2
    ++ [.deselect, .assemble]

/-- The command words of `FRAME` (R57). -/
def frameWords (channelByte : Byte) : List Cmd := (frame channelByte).map encode

end Sys2Proof.Machine
end

