-- ==== Sys2Proof/Safety.lean ====
section
/-! DEFINITION. The terms claims about the block are stated in: runs, the mark `REFUSED` as an observer
keeps it, the idle block and the end of a run, the event trace at its two levels, the order of the
agents, and the invariants (spec/20_memory.md rule R42, spec/40_serial_transport.md rules R69 to R73,
spec/60_exceptions.md rule R92, spec/70_reset_and_hazards.md rules R104 and R113). -/

namespace Sys2Proof.Machine

/-- A step's outcome. -/
abbrev Outcome := Host.Outcome State Fault Refusal

/-- The next state, if the outcome is one. -/
def nextOf : Outcome → Option State
  | .next t => some t
  | .fault _ => none
  | .refused _ => none

/-- The reason of a refusal, if the outcome is one. -/
def refusalOf : Outcome → Option Refusal
  | .next _ => none
  | .fault _ => none
  | .refused r => some r

/-- An outcome with its next state, if it is one, replaced by `f` of it. -/
def onNext (f : State → State) : Outcome → Outcome
  | .next t => .next (f t)
  | .fault r => .fault r
  | .refused r => .refused r

/-- `k` steps, stopping at the first refusal. -/
def run : Nat → State → Outcome
  | 0, s => .next s
  | k + 1, s =>
    match step s with
    | .next t => run k t
    | .fault r => .fault r
    | .refused r => .refused r

/-- A step as an observer records it: on a refusal "the model takes no step, sets `REFUSED <- 1`" (R92).
DEDUCED, safe (log entry 7). -/
def observe (s : State) : State :=
  match step s with
  | .next t => t
  | .fault _ => s.markRefused
  | .refused _ => s.markRefused

/-! ### The idle block and the end of a run -/

/-- `BUSY = 0` and `SEQ = 0` (R113). -/
def State.quiescent (s : State) : Bool := !s.busy && s.seq == 0#4

/-- "The host has no more operations to issue, the last operation has completed, and the block is
quiescent" (R113). -/
def State.runEnded (s : State) : Bool := s.hostOps.isEmpty && s.quiescent

/-- "The block is left idle": `CS_N = 1`, `BUSY = 0`, `RX_FRESH = 0`, `SEQ = 0` (R113). -/
def State.leftIdle (s : State) : Bool := s.idle && s.seq == 0#4

/-! ### The event trace -/

/-- `Rise` and `Fall` belong to the wire level only (R42). -/
def Event.atByteLevel : Event → Bool
  | .csLow => true
  | .csHigh => true
  | .tx _ => true
  | .rise _ _ => false
  | .fall => false
  | .rx _ => true
  | .result _ => true

/-- The byte-level trace: "the same sequence with `Rise` and `Fall` removed" (R42). -/
def byteLevel (tr : List Event) : List Event := tr.filter Event.atByteLevel

def Event.isTx : Event → Bool
  | .tx _ => true
  | _ => false

def Event.isRise : Event → Bool
  | .rise _ _ => true
  | _ => false

def Event.isFall : Event → Bool
  | .fall => true
  | _ => false

/-- The sixteen edges of one byte: `b` goes out and `r` comes in, most significant bit first (R69). -/
def byteWave (b r : Byte) : List Event :=
  ((bitsOnWire b).zip (bitsOnWire r)).flatMap fun p => [.rise p.1 p.2, .fall]

/-- One phase of the frame at wire level: a transmit, its edges, its receive (R69). -/
def phaseTrace (b r : Byte) : List Event := [.tx b] ++ byteWave b r ++ [.rx r]

/-- The wire-level trace of a conversion frame whose three answers are `r1`, `r2`, `r3` (R83). -/
def frameTrace (channelByte r1 r2 r3 : Byte) : List Event :=
  [.csLow] ++ phaseTrace startByte r1 ++ phaseTrace channelByte r2 ++ phaseTrace fillerByte r3
    ++ [.csHigh, .result (assembleBytes r2 r3)]

/-! ### The order of the agents -/

/-- The agent on which the `n`-th choice from here falls. -/
def State.turnAt (s : State) (n : Nat) : Agent :=
  (s.turnIn[n]?).getD (Config.freeTurn (s.turnCount + n))

/-- How many of the next `n` choices fall on ENG. -/
def State.engineTurns (s : State) (n : Nat) : Nat :=
  (List.range n).countP fun i => s.turnAt i == .engine

/-- An order of the agents that carries one byte from its acceptance to its completion: ENG has its 16
turns, the last of them at the end; SEQ's turns among them are spent in a hold (R43, R64, R73). -/
def byteTurns (ts : List Agent) : Bool := ts.count .engine == 16 && ts.getLast? == some .engine

/-- The launch premise `Configured`: ENG is weakly fair, so the choice falls on it as often as is asked
for (R73, R104). DESIGN CHOICE, safe as a premise, and assumed by no step (log entry 13). -/
def State.Configured (s : State) : Prop := ∀ k, ∃ n, k ≤ s.engineTurns n

/-- The clock edges ENG still has to take for the byte in flight; a byte is 16 (R10, R64, R73). -/
def State.edgesLeft (s : State) : Nat :=
  if s.busy then 16 - (2 * s.bitcnt.toNat + s.sclk.toNat) else 0

/-! ### Counting command words -/

/-- How many of the 65536 command words the decoder answers with a result of the kind `p` (R53). -/
def wordCount (p : Decoded → Bool) : Nat :=
  (List.range 65536).countP fun n => p (decode (BitVec.ofNat 16 n))

def namesTransmit : Decoded → Bool
  | .op (.transmit _) => true
  | _ => false

def namesReceive : Decoded → Bool
  | .op (.receive _) => true
  | _ => false

/-- One of the four operations without an operand. -/
def namesOther : Decoded → Bool
  | .op .select => true
  | .op .deselect => true
  | .op .assemble => true
  | .op .convert => true
  | _ => false

def namesReserved : Decoded → Bool
  | .reservedCommand => true
  | _ => false

/-! ### Invariants -/

/-- The mode 0 invariants that speak of one state: items 1, 5, 6 and 7 of R71. "No `TRANSMIT` has happened
since reset" is read off `TXDR`, which holds `none` exactly until then (R22); so a byte in flight means
that `TXDR` holds a value. -/
structure WireInv (s : State) : Prop where
  idleClock : s.busy = false → s.sclk = false
  mosiIsTopBit : s.busy = true → s.tsr.map topBit = some s.mosi
  noFreshInFlight : ¬ (s.busy = true ∧ s.rxFresh = true)
  bitcntRange : s.bitcnt ≤ 8#4
  bitcntInFlight : s.busy = true → s.bitcnt ≤ 7#4
  txdrInFlight : s.busy = true → s.txdr.isSome
  bitcntQuiet : s.busy = false → s.bitcnt = if s.txdr.isNone then 0#4 else 8#4

/-- What the shift path holds: the transmit half is the byte of `TXDR` shifted out so far, and between
bytes `MOSI` keeps bit 0 of the last byte sent and `RXDR` the byte received (R20, R22 to R25, R67). -/
structure ShiftInv (s : State) : Prop where
  tsrInFlight : s.busy = true → s.txdr.isSome ∧ s.tsr = s.txdr.map fun b : Byte => b <<< s.bitcnt.toNat
  rsrInFlight : s.busy = true → s.rsr.isSome
  tsrQuiet : s.busy = false → s.tsr = s.txdr.map fun b : Byte => b <<< 7
  mosiQuiet : s.busy = false → s.mosi = (s.txdr.map fun b : Byte => b.getLsbD 0).getD false
  rxdrQuiet : s.busy = false → s.rxdr = s.rsr
  rsrQuiet : s.busy = false → s.rsr.isSome = s.txdr.isSome
  freshHolds : s.rxFresh = true → s.rxdr.isSome

/-- Where a `CONVERT` in progress stands: what `SEQ` says of the select line, the flags and the general
registers, and that the operation at the command port is that `CONVERT` (R28, R81, R82). -/
structure SeqInv (s : State) : Prop where
  seqRange : s.seq ≤ 9#4
  port : s.seq ≠ 0#4 → s.command = some (encode .convert)
  selected : 2#4 ≤ s.seq → s.seq ≤ 8#4 → s.csN = false
  deselected : s.seq = 1#4 ∨ s.seq = 9#4 → s.csN = true
  free : s.seq = 1#4 ∨ s.seq = 2#4 ∨ s.seq = 4#4 ∨ s.seq = 6#4 ∨ s.seq = 8#4 ∨ s.seq = 9#4 →
    s.bytePending = false
  pending : s.seq = 3#4 ∨ s.seq = 5#4 ∨ s.seq = 7#4 → s.bytePending = true
  b2Written : 6#4 ≤ s.seq → s.b2.isSome
  b3Written : 8#4 ≤ s.seq → s.b3.isSome

/-- The three together. -/
structure BlockInv (s : State) : Prop where
  wire : WireInv s
  shift : ShiftInv s
  sequencer : SeqInv s

/-- The edges on the trace: every byte accepted has 8 rising and 8 falling edges but for those still to
come of the byte in flight (R71 item 2, R69). -/
structure EdgeInv (s : State) : Prop where
  falls : (s.trace.countP Event.isFall) + (if s.busy then 8 - s.bitcnt.toNat else 0)
    = 8 * s.trace.countP Event.isTx
  rises : s.trace.countP Event.isRise = s.trace.countP Event.isFall + s.sclk.toNat

end Sys2Proof.Machine
end

