-- ==== Sys2Proof/Certificates/Slice0/Obligations.lean ====
section
/-! DEFINITION. The statements for the provers, each from the spec's numbered rules. A state is any
state, not only one a run reaches, unless a premise says otherwise. -/

open Sys2Proof Sys2Proof.Machine

/-! ### The command word -/

/-- R53, R49: the decoder gives an operation to a word exactly when the operation is well formed and the
word is its encoding. So decoding an encoded operation gives it back with every operand, and no other
word decodes. -/
def Obligations.DecodeAcceptsExactlyTheEncodings : Prop :=
  ∀ (w : Cmd) (i : Instr), decode w = .op i ↔ (i.wellFormed = true ∧ w = encode i)

/-- R53: which words are reserved, and that the step refuses a reserved word at the command port. The
encoding is the spec's own decision (D3, D4). -/
def Obligations.ReservedWordsRefused : Prop :=
  (∀ w : Cmd, decode w = .reservedCommand ↔
    opField w = 0x0#4 ∨ 0x7#4 ≤ opField w ∨ zField w ≠ 0#2 ∨
    ((opField w = 0x1#4 ∨ opField w = 0x2#4 ∨ opField w = 0x5#4 ∨ opField w = 0x6#4) ∧
      (rdField w ≠ 0#2 ∨ imm8Field w ≠ 0#8)) ∨
    (opField w = 0x3#4 ∧ rdField w ≠ 0#2) ∨
    (opField w = 0x4#4 ∧ imm8Field w ≠ 0#8) ∨
    (opField w = 0x4#4 ∧ rdField w = 1#2)) ∧
  (∀ (s : State) (w : Cmd), s.engineMoves = false → s.seq = 0#4 → s.command = some w →
    decode w = .reservedCommand → step s = .refused .reservedCommand)

/-- R53: "Of the 65536 words, 256 are `TRANSMIT`, 3 are `RECEIVE`, 4 are the other operations, and 65273 are
reserved". -/
def Obligations.CommandWordCounts : Prop :=
  wordCount namesTransmit = 256 ∧ wordCount namesReceive = 3 ∧ wordCount namesOther = 4 ∧
  wordCount namesReserved = 65273

/-- R48: the four fields and their places: `op` in 15:12, `z` in 11:10, `rd` in 9:8, `imm8` in 7:0; the
encoder puts 0 in `z`, in `rd` of every operation but `RECEIVE`, and in `imm8` of every operation but
`TRANSMIT`, and a word that decodes has 0 in them too. The layout is the spec's own decision (D3). -/
def Obligations.CommandWordLayout : Prop :=
  (∀ w : Cmd, w.toNat = 4096 * (opField w).toNat + 1024 * (zField w).toNat + 256 * (rdField w).toNat
    + (imm8Field w).toNat) ∧
  (∀ i : Instr, opField (encode i) = i.opcode ∧ zField (encode i) = 0#2) ∧
  (∀ i : Instr, (∀ rd, i ≠ .receive rd) → rdField (encode i) = 0#2) ∧
  (∀ i : Instr, (∀ b, i ≠ .transmit b) → imm8Field (encode i) = 0#8) ∧
  (∀ (w : Cmd) (i : Instr), decode w = .op i → zField w = 0#2 ∧
    ((∀ rd, i ≠ .receive rd) → rdField w = 0#2) ∧ ((∀ b, i ≠ .transmit b) → imm8Field w = 0#8)) ∧
  (∀ rd : BitVec 2, rdField (encode (.receive rd)) = rd) ∧
  (∀ b : Byte, imm8Field (encode (.transmit b)) = b)

/-- R49: the operation codes and the rows of match and mask, with the further condition of the `RECEIVE`
row; the other operation codes are reserved, and the rows are disjoint. The table is the spec's own decision
(D3). -/
def Obligations.RowsSelectOperations : Prop :=
  (∀ w : Cmd,
    (decode w = .op .select ↔ w &&& 0xFFFF#16 = 0x1000#16) ∧
    (decode w = .op .deselect ↔ w &&& 0xFFFF#16 = 0x2000#16) ∧
    (∀ b, decode w = .op (.transmit b) ↔ (w &&& 0xFF00#16 = 0x3000#16 ∧ b = imm8Field w)) ∧
    (∀ rd, decode w = .op (.receive rd) ↔
      (w &&& 0xFCFF#16 = 0x4000#16 ∧ rd = rdField w ∧ rd ≠ 1#2)) ∧
    (decode w = .op .assemble ↔ w &&& 0xFFFF#16 = 0x5000#16) ∧
    (decode w = .op .convert ↔ w &&& 0xFFFF#16 = 0x6000#16) ∧
    (opField w = 0x0#4 ∨ 0x7#4 ≤ opField w → decode w = .reservedCommand) ∧
    (opcodeRows.filter (selectsRow w)).length ≤ 1) ∧
  Instr.select.opcode = 0x1#4 ∧ Instr.deselect.opcode = 0x2#4 ∧
  (∀ b, (Instr.transmit b).opcode = 0x3#4) ∧ (∀ rd, (Instr.receive rd).opcode = 0x4#4) ∧
  Instr.assemble.opcode = 0x5#4 ∧ Instr.convert.opcode = 0x6#4

/-- R56: the textual form of every well-formed operation reads back as that operation, also with a
comment after it, and only the operations the command word can name have a textual form. -/
def Obligations.TextReadsBack : Prop :=
  ∀ i : Instr, i.text.isSome = i.wellFormed ∧
    ∀ t, i.text = some t → readLine t = some i ∧ ∀ comment, readLine (t ++ ' ' :: ';' :: comment) = some i

/-- T5 of spec/95_test_vectors.md, R49: a few words written out from the encoding decode to the operations
they stand for, and a few reserved ones to none. -/
def Obligations.WrittenOutWordsDecode : Prop :=
  decode 0x1000#16 = .op .select ∧ decode 0x2000#16 = .op .deselect ∧
  decode 0x30FF#16 = .op (.transmit 0xFF#8) ∧ decode 0x4000#16 = .op (.receive 0#2) ∧
  decode 0x4200#16 = .op (.receive 2#2) ∧ decode 0x4300#16 = .op (.receive 3#2) ∧
  decode 0x5000#16 = .op .assemble ∧ decode 0x6000#16 = .op .convert ∧
  decode 0x0000#16 = .reservedCommand ∧ decode 0x4100#16 = .reservedCommand ∧
  decode 0x3400#16 = .reservedCommand ∧ decode 0xFFFF#16 = .reservedCommand

/-! ### The step -/

/-- R10, R43, R64, R82: a step that falls on ENG is its next edge; a step in which ENG does not move and no `CONVERT` is in progress runs the operation that
the word at the command port decodes to. Around it the step does one thing: while a byte is in flight it
uses up the choice of agent (the model's form of that choice, log entry 4). With nothing at the command port
the state is otherwise unchanged (log entry 1). -/
def Obligations.StepRunsDecodedOperation : Prop :=
  (∀ s : State, s.engineMoves = true → step s = engineEdge s.passTurn) ∧
  (∀ (s : State) (w : Cmd) (i : Instr), s.engineMoves = false → s.seq = 0#4 → s.command = some w →
    decode w = .op i → step s = exec i s.passTurn) ∧
  (∀ s : State, s.engineMoves = false → s.seq = 0#4 → s.command = none → step s = .next s.passTurn) ∧
  (∀ s : State, s.busy = false → s.passTurn = s ∧ s.engineMoves = false) ∧
  (∀ s : State, s.busy = true →
    s.passTurn = { s with turnIn := s.turnIn.tail, turnCount := s.turnCount + 1 })

/-- R10, R105: an operation handed to the machine from outside by `State.withFetchWord` (log entry 9, the
model's own) is the one the very next step runs, in any state. -/
def Obligations.PlacedOperationRunsNext : Prop :=
  ∀ (s : State) (nbits w : Nat) (i : Instr), decodeTableWord nbits w = some i →
    step (s.withFetchWord nbits w) = exec i (s.withFetchWord nbits w).passTurn ∧
    (s.withFetchWord nbits w).passTurn.turnIn = s.turnIn ∧
    (s.withFetchWord nbits w).passTurn.hostOps.tail = s.hostOps

/-- R64: ENG has a step exactly when `BUSY = 1`. With `BUSY = 1` and the choice of agent on ENG (the model's
form of the interleaving, log entry 4) there is a next state, and it is one edge: rising when `SCLK = 0`,
falling when `SCLK = 1`. With `BUSY = 0` no step is an edge, whatever the choices: `SCLK`, `RXDR` and, but for
a byte accepted, `RSR` stay, and no `Rise` or `Fall` comes on the trace. -/
def Obligations.EngineStepsWhileBusy : Prop :=
  (∀ s : State, WireInv s → s.busy = true → s.turn = .engine →
    ∃ t, step s = .next t ∧ t.sclk = !s.sclk ∧
      ∃ e, t.trace = s.trace ++ [e] ∧ e.isRise = !s.sclk ∧ e.isFall = s.sclk) ∧
  (∀ (s t : State), s.busy = false → step s = .next t →
    t.sclk = s.sclk ∧ t.rsr = (if t.busy then some 0x00#8 else s.rsr) ∧ t.rxdr = s.rxdr ∧
    ∃ es, t.trace = s.trace ++ es ∧ ∀ e ∈ es, e.isRise = false ∧ e.isFall = false)

/-! ### The operations: their results -/

/-- R76: `SELECT` completes in every state: the select line is low, the event is emitted, nothing is
returned, and nothing else changes, in the corner cases too (D14). -/
def Obligations.SelectDrivesLineLow : Prop :=
  ∀ s : State, exec .select s = .next { s with
    csN := false
    trace := s.trace ++ [.csLow]
    hostOps := s.hostOps.tail
    responses := s.responses ++ [none] }

/-- R77: `DESELECT` completes in every state: the select line is high, the event is emitted, nothing is
returned, and nothing else changes, in the corner cases too (D14). -/
def Obligations.DeselectDrivesLineHigh : Prop :=
  ∀ s : State, exec .deselect s = .next { s with
    csN := true
    trace := s.trace ++ [.csHigh]
    hostOps := s.hostOps.tail
    responses := s.responses ++ [none] }

/-- R62: `TRANSMIT` completes when no byte is in flight or unread, whatever `CS_N` is, and is refused
otherwise. The precondition and the atomic acceptance are the spec's own decision D10, `MOSI` its D6. -/
def Obligations.TransmitLoadsShiftPath : Prop :=
  ∀ (s : State) (b : Byte),
    (s.busy = false → s.rxFresh = false → exec (.transmit b) s = .next { s with
      txdr := some b
      tsr := some b
      rsr := some 0x00#8
      bitcnt := 0#4
      mosi := b.getLsbD 7
      busy := true
      trace := s.trace ++ [.tx b]
      hostOps := s.hostOps.tail
      responses := s.responses ++ [none] }) ∧
    (s.busy = true ∨ s.rxFresh = true → exec (.transmit b) s = .refused .transmitWhilePending)

/-- R63: `RECEIVE` with a legal `rd` is refused with no byte in flight or unread, holds with the state as it
is while a byte is in flight, and completes in every state with `BUSY = 0` and `RX_FRESH = 1`: a byte, the one
`RXDR` holds, is returned with zeros above it and stored where `rd` says. Where `RXDR` held `none`, which no run
comes to, nothing is said of the byte (log entry 8). The precondition is the spec's own decision D9, `rd` its D28; that
a hold is a next state that changes nothing is the model's form of "no step" (log entry 1). -/
def Obligations.ReceiveReturnsByte : Prop :=
  ∀ (s : State) (rd : BitVec 2), rd ≠ 1#2 →
    (s.busy = false → s.rxFresh = false → exec (.receive rd) s = .refused .receiveWithoutTransmit) ∧
    (s.busy = true → exec (.receive rd) s = .next s) ∧
    (s.busy = false → s.rxFresh = true → ∃ v : Byte, (∀ x, s.rxdr = some x → v = x) ∧
      exec (.receive rd) s = .next { s with
        rxFresh := false
        b2 := if rd = 2#2 then some v else s.b2
        b3 := if rd = 3#2 then some v else s.b3
        trace := s.trace ++ [.rx v]
        hostOps := s.hostOps.tail
        responses := s.responses ++ [some (0#2 ++ v)] })

/-- R79: `ASSEMBLE` completes when `B2` and `B3` hold values, with `RESULT = B2[1:0] : B3`, and is refused
when one of them holds `none` (the refusal is the spec's own decision D11). -/
def Obligations.AssembleJoinsRegisters : Prop :=
  ∀ s : State,
    (∀ x y : Byte, s.b2 = some x → s.b3 = some y → exec .assemble s = .next { s with
      result := some (x.extractLsb' 0 2 ++ y)
      trace := s.trace ++ [.result (x.extractLsb' 0 2 ++ y)]
      hostOps := s.hostOps.tail
      responses := s.responses ++ [some (x.extractLsb' 0 2 ++ y)] }) ∧
    (s.b2 = none ∨ s.b3 = none → exec .assemble s = .refused .unwrittenRegister)

/-- R80, R92: `CONVERT` is accepted exactly when the block is idle, and refused otherwise; "on acceptance
`SEQ <- 1`" (R81). That the acceptance is a step of its own, which sets `SEQ` to 1 and changes nothing else,
is the model's (DEDUCED, log entry 16); the sub-steps that carry `CONVERT` out follow (`ConvertSubSteps`,
`ConvertRunsWholeFrame`). -/
def Obligations.ConvertAcceptedWhenIdle : Prop :=
  ∀ s : State,
    (s.csN = true → s.busy = false → s.rxFresh = false →
      exec .convert s = .next { s with seq := 1#4 }) ∧
    (s.csN = false ∨ s.busy = true ∨ s.rxFresh = true → exec .convert s = .refused .convertNotIdle)

/-- R78: the assembler's formula, its bits, its range, and that bits 7:2 of the second byte have no
effect. -/
def Obligations.AssemblerFormula : Prop :=
  ∀ x y : Byte,
    assembleBytes x y = ((x.setWidth 10 &&& 0x003#10) <<< 8) ||| y.setWidth 10 ∧
    assembleBytes x y = x.extractLsb' 0 2 ++ y ∧
    (assembleBytes x y).toNat = 256 * (x.toNat % 4) + y.toNat ∧
    (assembleBytes x y).toNat ≤ 1023 ∧
    (∀ m : Byte, m &&& 0x03#8 = 0#8 → assembleBytes (x ^^^ m) y = assembleBytes x y)

/-- R84, which the spec marks as derived from R78: the assembler is onto; a sample comes from a pair exactly when its bits 9:8 are the pair's
`b2[1:0]` and its bits 7:0 the pair's `b3`, which leaves the 64 settings of `b2[7:2]`. -/
def Obligations.AssemblerIsOnto : Prop :=
  ∀ v : Sample,
    (∀ x y : Byte, assembleBytes x y = v ↔ (x.extractLsb' 0 2 = v.extractLsb' 8 2 ∧ y = v.extractLsb' 0 8)) ∧
    ((List.range 256).countP fun n =>
      assembleBytes (BitVec.ofNat 8 n) (v.extractLsb' 0 8) == v) = 64

/-! ### The operations: what they leave unchanged -/

/-- The frame of `SELECT` and `DESELECT` (R34, R61, R76, R77): the select line is the one register they
write; with it change the trace and the command port. -/
def Obligations.SelectAndDeselectFrame : Prop :=
  ∀ (s t : State), exec .select s = .next t ∨ exec .deselect s = .next t →
    t.sclk = s.sclk ∧ t.mosi = s.mosi ∧ t.txdr = s.txdr ∧ t.rxdr = s.rxdr ∧ t.tsr = s.tsr ∧
    t.rsr = s.rsr ∧ t.bitcnt = s.bitcnt ∧ t.busy = s.busy ∧ t.rxFresh = s.rxFresh ∧ t.b2 = s.b2 ∧
    t.b3 = s.b3 ∧ t.result = s.result ∧ t.seq = s.seq ∧ t.refused = s.refused ∧
    t.channelByte = s.channelByte ∧ t.misoIn = s.misoIn ∧ t.drawCount = s.drawCount ∧
    t.turnIn = s.turnIn ∧ t.turnCount = s.turnCount ∧
    t.hostOps = s.hostOps.tail ∧ (∃ e, t.trace = s.trace ++ [e]) ∧ t.responses = s.responses ++ [none]

/-- The frame of `TRANSMIT` (R34, R62): it writes `TXDR`, `TSR`, `RSR`, `BITCNT`, `MOSI` and `BUSY`; it does
not touch `SCLK`, `CS_N`, `RXDR` or `RX_FRESH`. -/
def Obligations.TransmitFrame : Prop :=
  ∀ (s t : State) (b : Byte), exec (.transmit b) s = .next t →
    t.csN = s.csN ∧ t.sclk = s.sclk ∧ t.rxdr = s.rxdr ∧ t.rxFresh = s.rxFresh ∧ t.b2 = s.b2 ∧
    t.b3 = s.b3 ∧ t.result = s.result ∧ t.seq = s.seq ∧ t.refused = s.refused ∧
    t.channelByte = s.channelByte ∧ t.misoIn = s.misoIn ∧ t.drawCount = s.drawCount ∧
    t.turnIn = s.turnIn ∧ t.turnCount = s.turnCount ∧
    t.hostOps = s.hostOps.tail ∧ t.trace = s.trace ++ [.tx b] ∧ t.responses = s.responses ++ [none]

/-- The frame of `RECEIVE` (R34, R51, R63): it writes `RX_FRESH`, and `B2` or `B3` only if `rd` names it; in
a hold it writes nothing at all. -/
def Obligations.ReceiveFrame : Prop :=
  ∀ (s t : State) (rd : BitVec 2), exec (.receive rd) s = .next t →
    t.csN = s.csN ∧ t.sclk = s.sclk ∧ t.mosi = s.mosi ∧ t.txdr = s.txdr ∧ t.rxdr = s.rxdr ∧
    t.tsr = s.tsr ∧ t.rsr = s.rsr ∧ t.bitcnt = s.bitcnt ∧ t.busy = s.busy ∧
    (rd ≠ 2#2 → t.b2 = s.b2) ∧ (rd ≠ 3#2 → t.b3 = s.b3) ∧ t.result = s.result ∧ t.seq = s.seq ∧
    t.refused = s.refused ∧ t.channelByte = s.channelByte ∧ t.misoIn = s.misoIn ∧
    t.drawCount = s.drawCount ∧ t.turnIn = s.turnIn ∧ t.turnCount = s.turnCount ∧
    (s.busy = true → t = s) ∧
    (s.busy = false → t.hostOps = s.hostOps.tail ∧ ∃ v, t.trace = s.trace ++ [.rx v])

/-- The frame of `ASSEMBLE` (R34, R40, R79): `RESULT` is the one register it writes; `B2` and `B3` are read
and kept. -/
def Obligations.AssembleFrame : Prop :=
  ∀ (s t : State), exec .assemble s = .next t →
    t.csN = s.csN ∧ t.sclk = s.sclk ∧ t.mosi = s.mosi ∧ t.txdr = s.txdr ∧ t.rxdr = s.rxdr ∧
    t.tsr = s.tsr ∧ t.rsr = s.rsr ∧ t.bitcnt = s.bitcnt ∧ t.busy = s.busy ∧ t.rxFresh = s.rxFresh ∧
    t.b2 = s.b2 ∧ t.b3 = s.b3 ∧ t.seq = s.seq ∧ t.refused = s.refused ∧
    t.channelByte = s.channelByte ∧ t.misoIn = s.misoIn ∧ t.drawCount = s.drawCount ∧
    t.turnIn = s.turnIn ∧ t.turnCount = s.turnCount ∧
    t.hostOps = s.hostOps.tail ∧ t.responses = s.responses ++ [t.result] ∧
    ∃ v, t.result = some v ∧ t.trace = s.trace ++ [.result v]

/-- The frame of `CONVERT` at its acceptance, and of its sub-steps (R34, R81). That acceptance is a step of
its own and changes `SEQ` alone is the model's (DEDUCED, log entry 16). No sub-step changes `SCLK`, `RXDR`, `CHANNEL_BYTE` or the environment's answers, and each of the
other registers changes only in the sub-steps that the table of R81 gives it to. -/
def Obligations.ConvertFrame : Prop :=
  (∀ (s t : State), exec .convert s = .next t → t = { s with seq := t.seq } ∧ t.seq = 1#4) ∧
  (∀ (s t : State), convertStep s = .next t →
    t.sclk = s.sclk ∧ t.rxdr = s.rxdr ∧ t.refused = s.refused ∧ t.channelByte = s.channelByte ∧
    t.misoIn = s.misoIn ∧ t.drawCount = s.drawCount ∧ t.turnIn = s.turnIn ∧
    t.turnCount = s.turnCount ∧
    (s.seq ≠ 1#4 → s.seq ≠ 8#4 → t.csN = s.csN) ∧
    (s.seq ≠ 2#4 → s.seq ≠ 4#4 → s.seq ≠ 6#4 → t.txdr = s.txdr ∧ t.tsr = s.tsr ∧ t.rsr = s.rsr ∧
      t.bitcnt = s.bitcnt ∧ t.mosi = s.mosi ∧ t.busy = s.busy) ∧
    (s.seq ≠ 3#4 → s.seq ≠ 5#4 → s.seq ≠ 7#4 → t.rxFresh = s.rxFresh) ∧
    (s.seq ≠ 5#4 → t.b2 = s.b2) ∧ (s.seq ≠ 7#4 → t.b3 = s.b3) ∧
    (s.seq ≠ 9#4 → t.result = s.result ∧ t.hostOps = s.hostOps ∧ t.responses = s.responses))

/-- The frame of ENG (R18, R34, R64): it never writes `CS_N`, `TXDR`, `B2`, `B3`, `RESULT` or `SEQ`, and the
command port and the responses stay as they are. -/
def Obligations.EngineFrame : Prop :=
  ∀ (s t : State), engineEdge s = .next t →
    t.csN = s.csN ∧ t.txdr = s.txdr ∧ t.b2 = s.b2 ∧ t.b3 = s.b3 ∧ t.result = s.result ∧
    t.seq = s.seq ∧ t.refused = s.refused ∧ t.channelByte = s.channelByte ∧
    t.hostOps = s.hostOps ∧ t.responses = s.responses ∧ t.turnIn = s.turnIn ∧
    t.turnCount = s.turnCount

/-! ### CONVERT -/

/-- R81: with no byte in flight, sub-step `k` does exactly what the operation of the table does, gives no
response of its own, keeps the operation at the command port and sets `SEQ` to `k + 1`; sub-step 9 sets
`SEQ` to 0 and returns. The inner `RECEIVE`s hold while `BUSY = 1`. -/
def Obligations.ConvertSubSteps : Prop :=
  ∀ (s : State),
    (∀ (k : BitVec 4) (i : Instr) (t : State),
      (k = 1#4 ∧ i = .select) ∨ (k = 2#4 ∧ i = .transmit 0x01#8) ∨ (k = 3#4 ∧ i = .receive 0#2) ∨
      (k = 4#4 ∧ i = .transmit s.channelByte) ∨ (k = 5#4 ∧ i = .receive 2#2) ∨
      (k = 6#4 ∧ i = .transmit 0x00#8) ∨ (k = 7#4 ∧ i = .receive 3#2) ∨ (k = 8#4 ∧ i = .deselect) →
      s.seq = k → s.busy = false → exec i s = .next t →
      step s = .next { t with seq := k + 1#4, hostOps := s.hostOps, responses := s.responses }) ∧
    (∀ t : State, s.seq = 9#4 → s.busy = false → exec .assemble s = .next t →
      step s = .next { t with seq := 0#4 }) ∧
    (s.seq = 3#4 ∨ s.seq = 5#4 ∨ s.seq = 7#4 → s.busy = true → s.engineMoves = false →
      step s = .next { s with turnIn := s.turnIn.tail, turnCount := s.turnCount + 1 })

/-- R82: while `SEQ` is not 0 the block accepts no operation: the words the host has put at the command port
have no influence on the step, and they stay until sub-step 9 takes off the one that completes. -/
def Obligations.ConvertIsAtomic : Prop :=
  ∀ (s : State) (ws : List Cmd), s.seq ≠ 0#4 →
    step { s with hostOps := ws }
      = onNext (fun t => { t with hostOps := if t.seq = 0#4 then ws.tail else ws }) (step s)

/-- R80: none of the inner operations of a `CONVERT` can be refused: in every state of the block's invariant
with a `CONVERT` in progress there is a next state. -/
def Obligations.ConvertIsNeverRefusedMidway : Prop :=
  ∀ s : State, BlockInv s → s.seq ≠ 0#4 → ∃ t, step s = .next t

/-- R83 for `CONVERT`, with R81, R69 and R86: from an idle block whose 24 answers spell `r1`, `r2`, `r3`, and
whatever the order of the agents (the spec marks R83 as derived), `CONVERT` gives the frame's trace, one
response, and the end state the rule lists. Its ten steps of SEQ are the acceptance (a step of its own, the
model's, log entry 16) and the nine sub-steps. The 24 cycles all lie between `CsLow` and `CsHigh`. -/
def Obligations.ConvertRunsWholeFrame : Prop :=
  ∀ (s : State) (r1 r2 r3 : Byte) (ts1 ts2 ts3 turns : List Agent) (ms : List Level) (ws : List Cmd),
    s.csN = true → s.sclk = false → s.busy = false → s.rxFresh = false → s.seq = 0#4 →
    byteTurns ts1 = true → byteTurns ts2 = true → byteTurns ts3 = true →
    s.hostOps = encode .convert :: ws →
    s.turnIn = ts1 ++ ts2 ++ ts3 ++ turns →
    s.misoIn = bitsOnWire r1 ++ bitsOnWire r2 ++ bitsOnWire r3 ++ ms →
    run (10 + ts1.length + ts2.length + ts3.length) s = .next { s with
      mosi := false
      txdr := some 0x00#8
      rxdr := some r3
      tsr := some 0x00#8
      rsr := some r3
      bitcnt := 8#4
      b2 := some r2
      b3 := some r3
      result := some (assembleBytes r2 r3)
      hostOps := ws
      misoIn := ms
      drawCount := s.drawCount + 24
      turnIn := turns
      turnCount := s.turnCount + (ts1.length + ts2.length + ts3.length)
      trace := s.trace ++ frameTrace s.channelByte r1 r2 r3
      responses := s.responses ++ [some (assembleBytes r2 r3)] }

/-- R83 for `FRAME`, with R57: the nine primitive operations issued back to back leave the same state and the
same trace as `CONVERT`; only the responses differ, nine instead of one. `CONVERT` takes one step of SEQ more,
its acceptance (the model's, log entry 16). -/
def Obligations.FrameRunsLikeConvert : Prop :=
  ∀ (s : State) (r1 r2 r3 : Byte) (ts1 ts2 ts3 turns : List Agent) (ms : List Level) (ws : List Cmd),
    s.csN = true → s.sclk = false → s.busy = false → s.rxFresh = false → s.seq = 0#4 →
    byteTurns ts1 = true → byteTurns ts2 = true → byteTurns ts3 = true →
    s.turnIn = ts1 ++ ts2 ++ ts3 ++ turns →
    s.misoIn = bitsOnWire r1 ++ bitsOnWire r2 ++ bitsOnWire r3 ++ ms →
    ∃ t, run (10 + ts1.length + ts2.length + ts3.length) { s with hostOps := encode .convert :: ws }
        = .next t ∧
      run (9 + ts1.length + ts2.length + ts3.length)
          { s with hostOps := frameWords s.channelByte ++ ws }
        = .next { t with
            responses := s.responses ++ [none, none, some (0#2 ++ r1), none, some (0#2 ++ r2), none,
              some (0#2 ++ r3), none, some (assembleBytes r2 r3)] }

/-- R46, R35, R110: the bytes of `FRAME_OUT` on `MOSI`: the frame's trace transmits `0x01`, `CHANNEL_BYTE`,
`0x00`, and the levels at its 24 rising edges are those bytes, most significant bit first; with the
default channel byte the only 1 is at cycle 8. -/
def Obligations.FrameOutOnMosi : Prop :=
  ∀ ch r1 r2 r3 : Byte,
    (frameTrace ch r1 r2 r3).filterMap (fun e => match e with | .tx b => some b | _ => none)
      = [0x01#8, ch, 0x00#8] ∧
    (frameTrace ch r1 r2 r3).filterMap (fun e => match e with | .rise m _ => some m | _ => none)
      = [false, false, false, false, false, false, false, true] ++ bitsOnWire ch
        ++ List.replicate 8 false ∧
    (∀ n, (frameOutBits 0x00#8)[n]? = some true ↔ n = 7) ∧
    byteLevel (frameTrace ch r1 r2 r3)
      = [.csLow, .tx 0x01#8, .rx r1, .tx ch, .rx r2, .tx 0x00#8, .rx r3, .csHigh,
          .result (assembleBytes r2 r3)]

/-- R47, R36: where the sample lies in `FRAME_IN`: cycles 15 and 16 carry `s[9]` and `s[8]`, cycles 17 to 24
carry `s[7]` to `s[0]`, and the assembler gives exactly those bits. -/
def Obligations.FrameInCarriesSample : Prop :=
  ∀ r1 r2 r3 : Byte,
    frameInSampleBits (bitsOnWire r1 ++ bitsOnWire r2 ++ bitsOnWire r3)
      = sampleBits (assembleBytes r2 r3)

/-! ### One byte on the wire -/

/-- R65: the rising edge. The level drawn is the next answer fixed in advance, or the free value where there
is none (the model's form of the draw, log entry 3). -/
def Obligations.RisingEdgeSamples : Prop :=
  (∀ (s : State) (r : Byte), s.busy = true → s.sclk = false → s.rsr = some r →
    engineEdge s = .next { s with
      sclk := true
      rsr := some (r.extractLsb' 0 7 ++ BitVec.ofBool s.misoLevel)
      misoIn := s.misoIn.tail
      drawCount := s.drawCount + 1
      trace := s.trace ++ [.rise s.mosi s.misoLevel] }) ∧
  (∀ (s : State) (m : Level) (ms : List Level), s.misoIn = m :: ms → s.misoLevel = m)

/-- R66: the falling edge of cycles 1 to 7 (that `MOSI` changes here is the spec's own decision D6). -/
def Obligations.FallingEdgeDrives : Prop :=
  ∀ (s : State) (x : Byte), s.busy = true → s.sclk = true → s.bitcnt < 7#4 → s.tsr = some x →
    engineEdge s = .next { s with
      sclk := false
      bitcnt := s.bitcnt + 1#4
      tsr := some (x.extractLsb' 0 7 ++ 0#1)
      mosi := x.getLsbD 6
      trace := s.trace ++ [.fall] }

/-- R67: the falling edge of cycle 8 (that all of it happens in one step is the spec's own decision D7). -/
def Obligations.LastEdgeCompletesByte : Prop :=
  ∀ (s : State) (r : Byte), s.busy = true → s.sclk = true → s.bitcnt = 7#4 → s.rsr = some r →
    engineEdge s = .next { s with
      sclk := false
      bitcnt := 8#4
      rxdr := some r
      rxFresh := true
      busy := false
      trace := s.trace ++ [.fall] }

/-- R69, which the spec marks as derived: the byte-level law, whatever the order of the agents. -/
def Obligations.ByteLevelLaw : Prop :=
  ∀ (s : State) (b r : Byte) (rd : BitVec 2) (ts turns : List Agent) (ms : List Level) (ws : List Cmd),
    rd ≠ 1#2 → s.busy = false → s.rxFresh = false → s.sclk = false → s.seq = 0#4 →
    byteTurns ts = true →
    s.hostOps = encode (.transmit b) :: encode (.receive rd) :: ws →
    s.turnIn = ts ++ turns → s.misoIn = bitsOnWire r ++ ms →
    run (2 + ts.length) s = .next { s with
      mosi := b.getLsbD 0
      txdr := some b
      rxdr := some r
      tsr := some (b.extractLsb' 0 1 ++ 0#7)
      rsr := some r
      bitcnt := 8#4
      b2 := if rd = 2#2 then some r else s.b2
      b3 := if rd = 3#2 then some r else s.b3
      hostOps := ws
      misoIn := ms
      drawCount := s.drawCount + 8
      turnIn := turns
      turnCount := s.turnCount + ts.length
      trace := s.trace ++ [.tx b,
        .rise (b.getLsbD 7) (r.getLsbD 7), .fall, .rise (b.getLsbD 6) (r.getLsbD 6), .fall,
        .rise (b.getLsbD 5) (r.getLsbD 5), .fall, .rise (b.getLsbD 4) (r.getLsbD 4), .fall,
        .rise (b.getLsbD 3) (r.getLsbD 3), .fall, .rise (b.getLsbD 2) (r.getLsbD 2), .fall,
        .rise (b.getLsbD 1) (r.getLsbD 1), .fall, .rise (b.getLsbD 0) (r.getLsbD 0), .fall, .rx r]
      responses := s.responses ++ [none, some (0#2 ++ r)] }

/-- R64, R73: in every state of the block's invariant with a byte in flight, a step that falls on ENG is never
refused and brings the byte one edge nearer its completion; the byte completes with its last edge. -/
def Obligations.EveryEdgeBringsCompletionNearer : Prop :=
  ∀ s : State, BlockInv s → s.engineMoves = true →
    1 ≤ s.edgesLeft ∧ s.edgesLeft ≤ 16 ∧
    ∃ t, step s = .next t ∧ t.edgesLeft + 1 = s.edgesLeft ∧ (t.busy = false ↔ s.edgesLeft = 1)

/-- R73, R63: a `RECEIVE` that meets its precondition returns once ENG has had as many turns as the byte has
edges left. -/
def Obligations.ReceiveReturnsOnceEngineHasTurns : Prop :=
  ∀ (s : State) (rd : BitVec 2) (n : Nat), BlockInv s → s.seq = 0#4 → rd ≠ 1#2 →
    s.command = some (encode (.receive rd)) → s.bytePending = true → s.edgesLeft ≤ s.engineTurns n →
    ∃ k t v, k ≤ n + 1 ∧ run k s = .next t ∧ t.rxdr = some v ∧ t.hostOps = s.hostOps.tail ∧
      t.responses = s.responses ++ [some (0#2 ++ v)]

/-- R72, R93, R95: while ENG does not step a `RECEIVE` holds, the host's or an inner one of `CONVERT`: for as
many steps as one likes there is a next state, with no value, no error and no timeout. -/
def Obligations.HoldIsKeptWithoutEngine : Prop :=
  ∀ (n : Nat) (s : State), s.busy = true →
    (s.seq = 0#4 ∧ ∃ rd, rd ≠ 1#2 ∧ s.command = some (encode (.receive rd))) ∨
      s.seq = 3#4 ∨ s.seq = 5#4 ∨ s.seq = 7#4 →
    (∀ i, i < n → s.turnAt i = .sequencer) →
    run n s = .next { s with turnIn := s.turnIn.drop n, turnCount := s.turnCount + n }

/-- R64, R86, R43: `SELECT`, `DESELECT` and `ASSEMBLE` do not disturb a byte in flight: taken before or after a
step of ENG they lead to the same state, but for the order of the events in the trace. -/
def Obligations.EngineCommutesWithSelectAndAssemble : Prop :=
  ∀ (s u t : State) (i : Instr), i = .select ∨ i = .deselect ∨ i = .assemble →
    exec i s = .next u → engineEdge s = .next t →
    ∃ x y, exec i t = .next x ∧ engineEdge u = .next y ∧
      { x with trace := [] } = { y with trace := [] }

/-! ### Invariants -/

/-- R71 items 1, 5, 6, 7, which the spec marks as derived: every step keeps the mode 0 invariants. -/
def Obligations.StepKeepsWireInvariants : Prop :=
  ∀ s t : State, WireInv s → step s = .next t → WireInv t

/-- R71, R101: the mode 0 invariants hold at reset. -/
def Obligations.ResetHasWireInvariants : Prop := WireInv State.reset

/-- R20, R22 to R25, R67: every step keeps what the shift path holds. -/
def Obligations.StepKeepsShiftPath : Prop :=
  ∀ s t : State, WireInv s → ShiftInv s → step s = .next t → ShiftInv t

/-- R28, R81, R82: every step keeps what `SEQ` says of the block. -/
def Obligations.StepKeepsConvertPhase : Prop :=
  ∀ s t : State, SeqInv s → step s = .next t → SeqInv t

/-- R31, R101: the shift path's and the sequencer's invariants hold at reset. -/
def Obligations.ResetHasShiftAndConvertInvariants : Prop :=
  ShiftInv State.reset ∧ SeqInv State.reset

/-- R71 item 2, R69: every step keeps the count of edges: every byte has exactly 8 rising and 8 falling edges,
in strict alternation. -/
def Obligations.StepKeepsEdgeCount : Prop :=
  ∀ s t : State, WireInv s → EdgeInv s → step s = .next t → EdgeInv t

/-- R71 item 2, R101: the count of edges holds at reset. -/
def Obligations.ResetHasEdgeCount : Prop := EdgeInv State.reset

/-! ### Rules of the whole block -/

/-- R18, R19, R71 items 2 and 3: which steps can move a wire. `CS_N` changes only with its event; `SCLK` only in
a step of ENG; `MOSI` only in a `TRANSMIT` step, while `SCLK` is 0, or at a falling edge. -/
def Obligations.WiresMoveOnlyWhereAllowed : Prop :=
  ∀ s t : State, WireInv s → step s = .next t →
    (t.csN ≠ s.csN → t.trace = s.trace ++ [if t.csN then .csHigh else .csLow]) ∧
    (t.sclk ≠ s.sclk → s.engineMoves = true) ∧
    (t.mosi ≠ s.mosi → (s.sclk = false ∧ ∃ b, t.trace = s.trace ++ [.tx b]) ∨
      (s.sclk = true ∧ t.trace = s.trace ++ [.fall]))

/-- R16, R17: `BUSY` is set only by a transmit and cleared only by ENG's last edge; `RX_FRESH` is set in the
step that clears `BUSY` and cleared only by a receive, which returns the byte `RXDR` holds (where it holds
`none`, which no run comes to, nothing is said of the byte; log entry 8). -/
def Obligations.FlagsMoveOnlyWhereAllowed : Prop :=
  ∀ s t : State, step s = .next t →
    (s.busy = false → t.busy = true → ∃ b, t.txdr = some b ∧ t.trace = s.trace ++ [.tx b]) ∧
    (s.busy = true → t.busy = false →
      s.engineMoves = true ∧ s.sclk = true ∧ s.bitcnt = 7#4 ∧ t.rxFresh = true ∧ t.rxdr = s.rsr) ∧
    (s.rxFresh = false → t.rxFresh = true → s.busy = true ∧ t.busy = false) ∧
    (s.rxFresh = true → t.rxFresh = false →
      ∃ v, (∀ x, s.rxdr = some x → v = x) ∧ t.trace = s.trace ++ [.rx v])

/-- R14, R22, R23, R27: which steps write a data register, and with what; `B2` and `B3` take the byte `RXDR` holds
(where it holds `none`, which no run comes to, nothing is said of the byte; log entry 8). -/
def Obligations.DataRegistersWrittenOnlyWhereAllowed : Prop :=
  ∀ s t : State, step s = .next t →
    (t.b2 ≠ s.b2 → ∃ v, (∀ x, s.rxdr = some x → v = x) ∧ t.b2 = some v ∧ t.trace = s.trace ++ [.rx v]) ∧
    (t.b3 ≠ s.b3 → ∃ v, (∀ x, s.rxdr = some x → v = x) ∧ t.b3 = some v ∧ t.trace = s.trace ++ [.rx v]) ∧
    (t.result ≠ s.result → ∃ x y, s.b2 = some x ∧ s.b3 = some y ∧
      t.result = some (assembleBytes x y) ∧ t.trace = s.trace ++ [.result (assembleBytes x y)]) ∧
    (t.txdr ≠ s.txdr → ∃ b, t.txdr = some b ∧ t.trace = s.trace ++ [.tx b]) ∧
    (t.rxdr ≠ s.rxdr → t.rxdr = s.rsr ∧ t.trace = s.trace ++ [.fall])

/-- R28, R81: how `SEQ` moves: 0 to 1 at an acceptance (a step of its own, the model's, log entry 16), 1 to 9
one at a time, 9 to 0. -/
def Obligations.SeqMovesInOrder : Prop :=
  ∀ s t : State, SeqInv s → step s = .next t →
    t.seq = s.seq ∨ (s.seq = 0#4 ∧ t.seq = 1#4 ∧ s.idle = true) ∨
      (1#4 ≤ s.seq ∧ s.seq ≤ 8#4 ∧ t.seq = s.seq + 1#4) ∨
      (s.seq = 9#4 ∧ t.seq = 0#4 ∧ t.responses = s.responses ++ [t.result])

/-- R6, R29, R42: no step changes the channel byte or clears `REFUSED`, and the trace and the responses only
grow. -/
def Obligations.StepKeepsParameterMarkAndHistory : Prop :=
  ∀ s t : State, step s = .next t →
    t.channelByte = s.channelByte ∧ t.refused = s.refused ∧
    (∃ es, t.trace = s.trace ++ es ∧ es.length ≤ 1) ∧
    (∃ vs, t.responses = s.responses ++ vs ∧ t.hostOps = s.hostOps.drop vs.length ∧ vs.length ≤ 1)

/-- R21, R68, R71 item 4: `MISO` is read only at rising edges, one draw at each. -/
def Obligations.MisoReadOnlyAtRisingEdges : Prop :=
  ∀ s t : State, step s = .next t →
    (s.engineMoves = true ∧ s.sclk = false ∧ t.trace = s.trace ++ [.rise s.mosi s.misoLevel] ∧
      t.drawCount = s.drawCount + 1 ∧ t.misoIn = s.misoIn.tail) ∨
    (t.drawCount = s.drawCount ∧ t.misoIn = s.misoIn ∧
      ∀ (ms : List Level) (n : Nat), step { s with misoIn := ms, drawCount := n }
        = .next { t with misoIn := ms, drawCount := n })

/-- R42, R29: the block never reads the trace, nor the responses it has given, nor the mark `REFUSED`. -/
def Obligations.RecordsAreNeverRead : Prop :=
  ∀ (s : State) (es : List Event) (vs : List (Option Sample)) (b : Bool),
    step { s with trace := es ++ s.trace, responses := vs ++ s.responses, refused := b }
      = onNext (fun t => { t with trace := es ++ t.trace, responses := vs ++ t.responses, refused := b })
          (step s)

/-- R92, R91: in every state of the block's invariant a step is refused exactly in the cases of the closed list
of reasons, and only where it is SEQ's turn with no `CONVERT` in progress. -/
def Obligations.RefusalsAreTheClosedList : Prop :=
  ∀ (s : State) (r : Refusal), BlockInv s →
    (step s = .refused r ↔
      s.engineMoves = false ∧ s.seq = 0#4 ∧ ∃ w, s.command = some w ∧
        ((decode w = .reservedCommand ∧ r = .reservedCommand) ∨
         (∃ b, decode w = .op (.transmit b) ∧ (s.busy = true ∨ s.rxFresh = true) ∧
            r = .transmitWhilePending) ∨
         (∃ rd, decode w = .op (.receive rd) ∧ s.busy = false ∧ s.rxFresh = false ∧
            r = .receiveWithoutTransmit) ∨
         (decode w = .op .assemble ∧ (s.b2 = none ∨ s.b3 = none) ∧ r = .unwrittenRegister) ∨
         (decode w = .op .convert ∧ (s.csN = false ∨ s.busy = true ∨ s.rxFresh = true) ∧
            r = .convertNotIdle)))

/-- R92, R29: on a refusal the model takes no step and sets `REFUSED`, which no later step clears. -/
def Obligations.RefusalMarkIsSticky : Prop :=
  (∀ (s : State) (r : Refusal), step s = .refused r → observe s = { s with refused := true }) ∧
  (∀ s t : State, step s = .next t → observe s = t) ∧
  (∀ (k : Nat) (s : State), s.refused = true → (observe^[k] s).refused = true)

/-- R113: a run that has ended takes no further effect: the step leaves the state as it is; and a state with
`BUSY = 1` or a `CONVERT` in progress is not an end. -/
def Obligations.EndedRunStaysEnded : Prop :=
  (∀ s : State, s.runEnded = true → step s = .next s) ∧
  (∀ s : State, s.busy = true ∨ s.seq ≠ 0#4 ∨ s.hostOps ≠ [] → s.runEnded = false)

/-- R101, R31: the state after reset, each value as the spec states it (its own decision D12); `none` is the
spec's own content of a register that nothing has written (R9; log entry 10). -/
def Obligations.ResetLeavesIdleLevels : Prop :=
  State.reset.csN = true ∧ State.reset.sclk = false ∧ State.reset.mosi = false ∧
  State.reset.busy = false ∧ State.reset.rxFresh = false ∧ State.reset.bitcnt = 0#4 ∧
  State.reset.seq = 0#4 ∧ State.reset.txdr = none ∧ State.reset.tsr = none ∧
  State.reset.rsr = none ∧ State.reset.rxdr = none ∧ State.reset.b2 = none ∧
  State.reset.b3 = none ∧ State.reset.result = none ∧ State.reset.refused = false ∧
  State.reset.trace = []

/-- R105: which operation may come first after reset: `SELECT`, `DESELECT`, `TRANSMIT` and `CONVERT` run,
`RECEIVE` and `ASSEMBLE` are refused. -/
def Obligations.FirstOperationAfterReset : Prop :=
  ∀ (i : Instr) (ws : List Cmd), i.wellFormed = true →
    (refusalOf (step { State.reset with hostOps := encode i :: ws })
      = match i with
        | .select => none
        | .deselect => none
        | .transmit _ => none
        | .receive _ => some .receiveWithoutTransmit
        | .assemble => some .unwrittenRegister
        | .convert => none) ∧
    ((nextOf (step { State.reset with hostOps := encode i :: ws })).isSome
      = (refusalOf (step { State.reset with hostOps := encode i :: ws })).isNone)

/-- R40: a `RECEIVE` is not idempotent, the next one without a transmit is refused; an `ASSEMBLE` is, it gives
the same result again. -/
def Obligations.ReceiveOnceAssembleAgain : Prop :=
  (∀ (s t : State) (rd rd' : BitVec 2), rd' ≠ 1#2 → s.busy = false → exec (.receive rd) s = .next t →
    exec (.receive rd') t = .refused .receiveWithoutTransmit) ∧
  (∀ s t : State, exec .assemble s = .next t →
    ∃ u, exec .assemble t = .next u ∧ u.result = t.result ∧ u.b2 = t.b2 ∧ u.b3 = t.b3)
end

