-- ==== Sys2Proof/Laws/State.lean ====
section
/-! SUPPORT. One lemma per field per named update of the state, each true by unfolding the update once, so
that no later proof unfolds a record update. -/

namespace Sys2Proof.Machine

/-! ### `State.emit` -/

@[simp] theorem State.emit_csN (e : Event) (s : State) : (s.emit e).csN = s.csN := rfl
@[simp] theorem State.emit_sclk (e : Event) (s : State) : (s.emit e).sclk = s.sclk := rfl
@[simp] theorem State.emit_mosi (e : Event) (s : State) : (s.emit e).mosi = s.mosi := rfl
@[simp] theorem State.emit_txdr (e : Event) (s : State) : (s.emit e).txdr = s.txdr := rfl
@[simp] theorem State.emit_rxdr (e : Event) (s : State) : (s.emit e).rxdr = s.rxdr := rfl
@[simp] theorem State.emit_tsr (e : Event) (s : State) : (s.emit e).tsr = s.tsr := rfl
@[simp] theorem State.emit_rsr (e : Event) (s : State) : (s.emit e).rsr = s.rsr := rfl
@[simp] theorem State.emit_bitcnt (e : Event) (s : State) : (s.emit e).bitcnt = s.bitcnt := rfl
@[simp] theorem State.emit_busy (e : Event) (s : State) : (s.emit e).busy = s.busy := rfl
@[simp] theorem State.emit_rxFresh (e : Event) (s : State) : (s.emit e).rxFresh = s.rxFresh := rfl
@[simp] theorem State.emit_b2 (e : Event) (s : State) : (s.emit e).b2 = s.b2 := rfl
@[simp] theorem State.emit_b3 (e : Event) (s : State) : (s.emit e).b3 = s.b3 := rfl
@[simp] theorem State.emit_result (e : Event) (s : State) : (s.emit e).result = s.result := rfl
@[simp] theorem State.emit_seq (e : Event) (s : State) : (s.emit e).seq = s.seq := rfl
@[simp] theorem State.emit_refused (e : Event) (s : State) : (s.emit e).refused = s.refused := rfl
@[simp] theorem State.emit_channelByte (e : Event) (s : State) : (s.emit e).channelByte = s.channelByte := rfl
@[simp] theorem State.emit_hostOps (e : Event) (s : State) : (s.emit e).hostOps = s.hostOps := rfl
@[simp] theorem State.emit_misoIn (e : Event) (s : State) : (s.emit e).misoIn = s.misoIn := rfl
@[simp] theorem State.emit_drawCount (e : Event) (s : State) : (s.emit e).drawCount = s.drawCount := rfl
@[simp] theorem State.emit_turnIn (e : Event) (s : State) : (s.emit e).turnIn = s.turnIn := rfl
@[simp] theorem State.emit_turnCount (e : Event) (s : State) : (s.emit e).turnCount = s.turnCount := rfl
@[simp] theorem State.emit_trace (e : Event) (s : State) : (s.emit e).trace = s.trace ++ [e] := rfl
@[simp] theorem State.emit_responses (e : Event) (s : State) : (s.emit e).responses = s.responses := rfl

/-! ### `State.complete` -/

@[simp] theorem State.complete_csN (v : Option Sample) (s : State) : (s.complete v).csN = s.csN := rfl
@[simp] theorem State.complete_sclk (v : Option Sample) (s : State) : (s.complete v).sclk = s.sclk := rfl
@[simp] theorem State.complete_mosi (v : Option Sample) (s : State) : (s.complete v).mosi = s.mosi := rfl
@[simp] theorem State.complete_txdr (v : Option Sample) (s : State) : (s.complete v).txdr = s.txdr := rfl
@[simp] theorem State.complete_rxdr (v : Option Sample) (s : State) : (s.complete v).rxdr = s.rxdr := rfl
@[simp] theorem State.complete_tsr (v : Option Sample) (s : State) : (s.complete v).tsr = s.tsr := rfl
@[simp] theorem State.complete_rsr (v : Option Sample) (s : State) : (s.complete v).rsr = s.rsr := rfl
@[simp] theorem State.complete_bitcnt (v : Option Sample) (s : State) : (s.complete v).bitcnt = s.bitcnt := rfl
@[simp] theorem State.complete_busy (v : Option Sample) (s : State) : (s.complete v).busy = s.busy := rfl
@[simp] theorem State.complete_rxFresh (v : Option Sample) (s : State) : (s.complete v).rxFresh = s.rxFresh := rfl
@[simp] theorem State.complete_b2 (v : Option Sample) (s : State) : (s.complete v).b2 = s.b2 := rfl
@[simp] theorem State.complete_b3 (v : Option Sample) (s : State) : (s.complete v).b3 = s.b3 := rfl
@[simp] theorem State.complete_result (v : Option Sample) (s : State) : (s.complete v).result = s.result := rfl
@[simp] theorem State.complete_seq (v : Option Sample) (s : State) : (s.complete v).seq = s.seq := rfl
@[simp] theorem State.complete_refused (v : Option Sample) (s : State) : (s.complete v).refused = s.refused := rfl
@[simp] theorem State.complete_channelByte (v : Option Sample) (s : State) : (s.complete v).channelByte = s.channelByte := rfl
@[simp] theorem State.complete_hostOps (v : Option Sample) (s : State) : (s.complete v).hostOps = s.hostOps.tail := rfl
@[simp] theorem State.complete_misoIn (v : Option Sample) (s : State) : (s.complete v).misoIn = s.misoIn := rfl
@[simp] theorem State.complete_drawCount (v : Option Sample) (s : State) : (s.complete v).drawCount = s.drawCount := rfl
@[simp] theorem State.complete_turnIn (v : Option Sample) (s : State) : (s.complete v).turnIn = s.turnIn := rfl
@[simp] theorem State.complete_turnCount (v : Option Sample) (s : State) : (s.complete v).turnCount = s.turnCount := rfl
@[simp] theorem State.complete_trace (v : Option Sample) (s : State) : (s.complete v).trace = s.trace := rfl
@[simp] theorem State.complete_responses (v : Option Sample) (s : State) : (s.complete v).responses = s.responses ++ [v] := rfl

/-! ### `State.markRefused` -/

@[simp] theorem State.markRefused_csN (s : State) : (s.markRefused).csN = s.csN := rfl
@[simp] theorem State.markRefused_sclk (s : State) : (s.markRefused).sclk = s.sclk := rfl
@[simp] theorem State.markRefused_mosi (s : State) : (s.markRefused).mosi = s.mosi := rfl
@[simp] theorem State.markRefused_txdr (s : State) : (s.markRefused).txdr = s.txdr := rfl
@[simp] theorem State.markRefused_rxdr (s : State) : (s.markRefused).rxdr = s.rxdr := rfl
@[simp] theorem State.markRefused_tsr (s : State) : (s.markRefused).tsr = s.tsr := rfl
@[simp] theorem State.markRefused_rsr (s : State) : (s.markRefused).rsr = s.rsr := rfl
@[simp] theorem State.markRefused_bitcnt (s : State) : (s.markRefused).bitcnt = s.bitcnt := rfl
@[simp] theorem State.markRefused_busy (s : State) : (s.markRefused).busy = s.busy := rfl
@[simp] theorem State.markRefused_rxFresh (s : State) : (s.markRefused).rxFresh = s.rxFresh := rfl
@[simp] theorem State.markRefused_b2 (s : State) : (s.markRefused).b2 = s.b2 := rfl
@[simp] theorem State.markRefused_b3 (s : State) : (s.markRefused).b3 = s.b3 := rfl
@[simp] theorem State.markRefused_result (s : State) : (s.markRefused).result = s.result := rfl
@[simp] theorem State.markRefused_seq (s : State) : (s.markRefused).seq = s.seq := rfl
@[simp] theorem State.markRefused_refused (s : State) : (s.markRefused).refused = true := rfl
@[simp] theorem State.markRefused_channelByte (s : State) : (s.markRefused).channelByte = s.channelByte := rfl
@[simp] theorem State.markRefused_hostOps (s : State) : (s.markRefused).hostOps = s.hostOps := rfl
@[simp] theorem State.markRefused_misoIn (s : State) : (s.markRefused).misoIn = s.misoIn := rfl
@[simp] theorem State.markRefused_drawCount (s : State) : (s.markRefused).drawCount = s.drawCount := rfl
@[simp] theorem State.markRefused_turnIn (s : State) : (s.markRefused).turnIn = s.turnIn := rfl
@[simp] theorem State.markRefused_turnCount (s : State) : (s.markRefused).turnCount = s.turnCount := rfl
@[simp] theorem State.markRefused_trace (s : State) : (s.markRefused).trace = s.trace := rfl
@[simp] theorem State.markRefused_responses (s : State) : (s.markRefused).responses = s.responses := rfl

/-! ### `State.drawn` -/

@[simp] theorem State.drawn_csN (s : State) : (s.drawn).csN = s.csN := rfl
@[simp] theorem State.drawn_sclk (s : State) : (s.drawn).sclk = s.sclk := rfl
@[simp] theorem State.drawn_mosi (s : State) : (s.drawn).mosi = s.mosi := rfl
@[simp] theorem State.drawn_txdr (s : State) : (s.drawn).txdr = s.txdr := rfl
@[simp] theorem State.drawn_rxdr (s : State) : (s.drawn).rxdr = s.rxdr := rfl
@[simp] theorem State.drawn_tsr (s : State) : (s.drawn).tsr = s.tsr := rfl
@[simp] theorem State.drawn_rsr (s : State) : (s.drawn).rsr = s.rsr := rfl
@[simp] theorem State.drawn_bitcnt (s : State) : (s.drawn).bitcnt = s.bitcnt := rfl
@[simp] theorem State.drawn_busy (s : State) : (s.drawn).busy = s.busy := rfl
@[simp] theorem State.drawn_rxFresh (s : State) : (s.drawn).rxFresh = s.rxFresh := rfl
@[simp] theorem State.drawn_b2 (s : State) : (s.drawn).b2 = s.b2 := rfl
@[simp] theorem State.drawn_b3 (s : State) : (s.drawn).b3 = s.b3 := rfl
@[simp] theorem State.drawn_result (s : State) : (s.drawn).result = s.result := rfl
@[simp] theorem State.drawn_seq (s : State) : (s.drawn).seq = s.seq := rfl
@[simp] theorem State.drawn_refused (s : State) : (s.drawn).refused = s.refused := rfl
@[simp] theorem State.drawn_channelByte (s : State) : (s.drawn).channelByte = s.channelByte := rfl
@[simp] theorem State.drawn_hostOps (s : State) : (s.drawn).hostOps = s.hostOps := rfl
@[simp] theorem State.drawn_misoIn (s : State) : (s.drawn).misoIn = s.misoIn.tail := rfl
@[simp] theorem State.drawn_drawCount (s : State) : (s.drawn).drawCount = s.drawCount + 1 := rfl
@[simp] theorem State.drawn_turnIn (s : State) : (s.drawn).turnIn = s.turnIn := rfl
@[simp] theorem State.drawn_turnCount (s : State) : (s.drawn).turnCount = s.turnCount := rfl
@[simp] theorem State.drawn_trace (s : State) : (s.drawn).trace = s.trace := rfl
@[simp] theorem State.drawn_responses (s : State) : (s.drawn).responses = s.responses := rfl

/-! ### `State.passTurn` -/

@[simp] theorem State.passTurn_csN (s : State) : (s.passTurn).csN = s.csN := by
  unfold State.passTurn; split <;> rfl
@[simp] theorem State.passTurn_sclk (s : State) : (s.passTurn).sclk = s.sclk := by
  unfold State.passTurn; split <;> rfl
@[simp] theorem State.passTurn_mosi (s : State) : (s.passTurn).mosi = s.mosi := by
  unfold State.passTurn; split <;> rfl
@[simp] theorem State.passTurn_txdr (s : State) : (s.passTurn).txdr = s.txdr := by
  unfold State.passTurn; split <;> rfl
@[simp] theorem State.passTurn_rxdr (s : State) : (s.passTurn).rxdr = s.rxdr := by
  unfold State.passTurn; split <;> rfl
@[simp] theorem State.passTurn_tsr (s : State) : (s.passTurn).tsr = s.tsr := by
  unfold State.passTurn; split <;> rfl
@[simp] theorem State.passTurn_rsr (s : State) : (s.passTurn).rsr = s.rsr := by
  unfold State.passTurn; split <;> rfl
@[simp] theorem State.passTurn_bitcnt (s : State) : (s.passTurn).bitcnt = s.bitcnt := by
  unfold State.passTurn; split <;> rfl
@[simp] theorem State.passTurn_busy (s : State) : (s.passTurn).busy = s.busy := by
  unfold State.passTurn; split <;> rfl
@[simp] theorem State.passTurn_rxFresh (s : State) : (s.passTurn).rxFresh = s.rxFresh := by
  unfold State.passTurn; split <;> rfl
@[simp] theorem State.passTurn_b2 (s : State) : (s.passTurn).b2 = s.b2 := by
  unfold State.passTurn; split <;> rfl
@[simp] theorem State.passTurn_b3 (s : State) : (s.passTurn).b3 = s.b3 := by
  unfold State.passTurn; split <;> rfl
@[simp] theorem State.passTurn_result (s : State) : (s.passTurn).result = s.result := by
  unfold State.passTurn; split <;> rfl
@[simp] theorem State.passTurn_seq (s : State) : (s.passTurn).seq = s.seq := by
  unfold State.passTurn; split <;> rfl
@[simp] theorem State.passTurn_refused (s : State) : (s.passTurn).refused = s.refused := by
  unfold State.passTurn; split <;> rfl
@[simp] theorem State.passTurn_channelByte (s : State) : (s.passTurn).channelByte = s.channelByte := by
  unfold State.passTurn; split <;> rfl
@[simp] theorem State.passTurn_hostOps (s : State) : (s.passTurn).hostOps = s.hostOps := by
  unfold State.passTurn; split <;> rfl
@[simp] theorem State.passTurn_misoIn (s : State) : (s.passTurn).misoIn = s.misoIn := by
  unfold State.passTurn; split <;> rfl
@[simp] theorem State.passTurn_drawCount (s : State) : (s.passTurn).drawCount = s.drawCount := by
  unfold State.passTurn; split <;> rfl
@[simp] theorem State.passTurn_turnIn (s : State) : (s.passTurn).turnIn = if s.busy then s.turnIn.tail else s.turnIn := by
  unfold State.passTurn; split <;> rfl
@[simp] theorem State.passTurn_turnCount (s : State) : (s.passTurn).turnCount = if s.busy then s.turnCount + 1 else s.turnCount := by
  unfold State.passTurn; split <;> rfl
@[simp] theorem State.passTurn_trace (s : State) : (s.passTurn).trace = s.trace := by
  unfold State.passTurn; split <;> rfl
@[simp] theorem State.passTurn_responses (s : State) : (s.passTurn).responses = s.responses := by
  unfold State.passTurn; split <;> rfl

/-! ### `State.latch` -/

@[simp] theorem State.latch_csN (rd : BitVec 2) (v : Byte) (s : State) : (s.latch rd v).csN = s.csN := by
  unfold State.latch; by_cases h2 : rd = 2#2 <;> by_cases h3 : rd = 3#2 <;> simp [h2, h3]
@[simp] theorem State.latch_sclk (rd : BitVec 2) (v : Byte) (s : State) : (s.latch rd v).sclk = s.sclk := by
  unfold State.latch; by_cases h2 : rd = 2#2 <;> by_cases h3 : rd = 3#2 <;> simp [h2, h3]
@[simp] theorem State.latch_mosi (rd : BitVec 2) (v : Byte) (s : State) : (s.latch rd v).mosi = s.mosi := by
  unfold State.latch; by_cases h2 : rd = 2#2 <;> by_cases h3 : rd = 3#2 <;> simp [h2, h3]
@[simp] theorem State.latch_txdr (rd : BitVec 2) (v : Byte) (s : State) : (s.latch rd v).txdr = s.txdr := by
  unfold State.latch; by_cases h2 : rd = 2#2 <;> by_cases h3 : rd = 3#2 <;> simp [h2, h3]
@[simp] theorem State.latch_rxdr (rd : BitVec 2) (v : Byte) (s : State) : (s.latch rd v).rxdr = s.rxdr := by
  unfold State.latch; by_cases h2 : rd = 2#2 <;> by_cases h3 : rd = 3#2 <;> simp [h2, h3]
@[simp] theorem State.latch_tsr (rd : BitVec 2) (v : Byte) (s : State) : (s.latch rd v).tsr = s.tsr := by
  unfold State.latch; by_cases h2 : rd = 2#2 <;> by_cases h3 : rd = 3#2 <;> simp [h2, h3]
@[simp] theorem State.latch_rsr (rd : BitVec 2) (v : Byte) (s : State) : (s.latch rd v).rsr = s.rsr := by
  unfold State.latch; by_cases h2 : rd = 2#2 <;> by_cases h3 : rd = 3#2 <;> simp [h2, h3]
@[simp] theorem State.latch_bitcnt (rd : BitVec 2) (v : Byte) (s : State) : (s.latch rd v).bitcnt = s.bitcnt := by
  unfold State.latch; by_cases h2 : rd = 2#2 <;> by_cases h3 : rd = 3#2 <;> simp [h2, h3]
@[simp] theorem State.latch_busy (rd : BitVec 2) (v : Byte) (s : State) : (s.latch rd v).busy = s.busy := by
  unfold State.latch; by_cases h2 : rd = 2#2 <;> by_cases h3 : rd = 3#2 <;> simp [h2, h3]
@[simp] theorem State.latch_rxFresh (rd : BitVec 2) (v : Byte) (s : State) : (s.latch rd v).rxFresh = s.rxFresh := by
  unfold State.latch; by_cases h2 : rd = 2#2 <;> by_cases h3 : rd = 3#2 <;> simp [h2, h3]
@[simp] theorem State.latch_b2 (rd : BitVec 2) (v : Byte) (s : State) : (s.latch rd v).b2 = if rd = 2#2 then some v else s.b2 := by
  unfold State.latch; by_cases h2 : rd = 2#2 <;> by_cases h3 : rd = 3#2 <;> simp [h2, h3]
@[simp] theorem State.latch_b3 (rd : BitVec 2) (v : Byte) (s : State) : (s.latch rd v).b3 = if rd = 3#2 then some v else s.b3 := by
  unfold State.latch; by_cases h2 : rd = 2#2 <;> by_cases h3 : rd = 3#2 <;> simp [h2, h3]
@[simp] theorem State.latch_result (rd : BitVec 2) (v : Byte) (s : State) : (s.latch rd v).result = s.result := by
  unfold State.latch; by_cases h2 : rd = 2#2 <;> by_cases h3 : rd = 3#2 <;> simp [h2, h3]
@[simp] theorem State.latch_seq (rd : BitVec 2) (v : Byte) (s : State) : (s.latch rd v).seq = s.seq := by
  unfold State.latch; by_cases h2 : rd = 2#2 <;> by_cases h3 : rd = 3#2 <;> simp [h2, h3]
@[simp] theorem State.latch_refused (rd : BitVec 2) (v : Byte) (s : State) : (s.latch rd v).refused = s.refused := by
  unfold State.latch; by_cases h2 : rd = 2#2 <;> by_cases h3 : rd = 3#2 <;> simp [h2, h3]
@[simp] theorem State.latch_channelByte (rd : BitVec 2) (v : Byte) (s : State) : (s.latch rd v).channelByte = s.channelByte := by
  unfold State.latch; by_cases h2 : rd = 2#2 <;> by_cases h3 : rd = 3#2 <;> simp [h2, h3]
@[simp] theorem State.latch_hostOps (rd : BitVec 2) (v : Byte) (s : State) : (s.latch rd v).hostOps = s.hostOps := by
  unfold State.latch; by_cases h2 : rd = 2#2 <;> by_cases h3 : rd = 3#2 <;> simp [h2, h3]
@[simp] theorem State.latch_misoIn (rd : BitVec 2) (v : Byte) (s : State) : (s.latch rd v).misoIn = s.misoIn := by
  unfold State.latch; by_cases h2 : rd = 2#2 <;> by_cases h3 : rd = 3#2 <;> simp [h2, h3]
@[simp] theorem State.latch_drawCount (rd : BitVec 2) (v : Byte) (s : State) : (s.latch rd v).drawCount = s.drawCount := by
  unfold State.latch; by_cases h2 : rd = 2#2 <;> by_cases h3 : rd = 3#2 <;> simp [h2, h3]
@[simp] theorem State.latch_turnIn (rd : BitVec 2) (v : Byte) (s : State) : (s.latch rd v).turnIn = s.turnIn := by
  unfold State.latch; by_cases h2 : rd = 2#2 <;> by_cases h3 : rd = 3#2 <;> simp [h2, h3]
@[simp] theorem State.latch_turnCount (rd : BitVec 2) (v : Byte) (s : State) : (s.latch rd v).turnCount = s.turnCount := by
  unfold State.latch; by_cases h2 : rd = 2#2 <;> by_cases h3 : rd = 3#2 <;> simp [h2, h3]
@[simp] theorem State.latch_trace (rd : BitVec 2) (v : Byte) (s : State) : (s.latch rd v).trace = s.trace := by
  unfold State.latch; by_cases h2 : rd = 2#2 <;> by_cases h3 : rd = 3#2 <;> simp [h2, h3]
@[simp] theorem State.latch_responses (rd : BitVec 2) (v : Byte) (s : State) : (s.latch rd v).responses = s.responses := by
  unfold State.latch; by_cases h2 : rd = 2#2 <;> by_cases h3 : rd = 3#2 <;> simp [h2, h3]

/-! ### `State.selectLow` -/

@[simp] theorem State.selectLow_csN (s : State) : (s.selectLow).csN = false := rfl
@[simp] theorem State.selectLow_sclk (s : State) : (s.selectLow).sclk = s.sclk := rfl
@[simp] theorem State.selectLow_mosi (s : State) : (s.selectLow).mosi = s.mosi := rfl
@[simp] theorem State.selectLow_txdr (s : State) : (s.selectLow).txdr = s.txdr := rfl
@[simp] theorem State.selectLow_rxdr (s : State) : (s.selectLow).rxdr = s.rxdr := rfl
@[simp] theorem State.selectLow_tsr (s : State) : (s.selectLow).tsr = s.tsr := rfl
@[simp] theorem State.selectLow_rsr (s : State) : (s.selectLow).rsr = s.rsr := rfl
@[simp] theorem State.selectLow_bitcnt (s : State) : (s.selectLow).bitcnt = s.bitcnt := rfl
@[simp] theorem State.selectLow_busy (s : State) : (s.selectLow).busy = s.busy := rfl
@[simp] theorem State.selectLow_rxFresh (s : State) : (s.selectLow).rxFresh = s.rxFresh := rfl
@[simp] theorem State.selectLow_b2 (s : State) : (s.selectLow).b2 = s.b2 := rfl
@[simp] theorem State.selectLow_b3 (s : State) : (s.selectLow).b3 = s.b3 := rfl
@[simp] theorem State.selectLow_result (s : State) : (s.selectLow).result = s.result := rfl
@[simp] theorem State.selectLow_seq (s : State) : (s.selectLow).seq = s.seq := rfl
@[simp] theorem State.selectLow_refused (s : State) : (s.selectLow).refused = s.refused := rfl
@[simp] theorem State.selectLow_channelByte (s : State) : (s.selectLow).channelByte = s.channelByte := rfl
@[simp] theorem State.selectLow_hostOps (s : State) : (s.selectLow).hostOps = s.hostOps := rfl
@[simp] theorem State.selectLow_misoIn (s : State) : (s.selectLow).misoIn = s.misoIn := rfl
@[simp] theorem State.selectLow_drawCount (s : State) : (s.selectLow).drawCount = s.drawCount := rfl
@[simp] theorem State.selectLow_turnIn (s : State) : (s.selectLow).turnIn = s.turnIn := rfl
@[simp] theorem State.selectLow_turnCount (s : State) : (s.selectLow).turnCount = s.turnCount := rfl
@[simp] theorem State.selectLow_trace (s : State) : (s.selectLow).trace = s.trace ++ [.csLow] := rfl
@[simp] theorem State.selectLow_responses (s : State) : (s.selectLow).responses = s.responses := rfl

/-! ### `State.selectHigh` -/

@[simp] theorem State.selectHigh_csN (s : State) : (s.selectHigh).csN = true := rfl
@[simp] theorem State.selectHigh_sclk (s : State) : (s.selectHigh).sclk = s.sclk := rfl
@[simp] theorem State.selectHigh_mosi (s : State) : (s.selectHigh).mosi = s.mosi := rfl
@[simp] theorem State.selectHigh_txdr (s : State) : (s.selectHigh).txdr = s.txdr := rfl
@[simp] theorem State.selectHigh_rxdr (s : State) : (s.selectHigh).rxdr = s.rxdr := rfl
@[simp] theorem State.selectHigh_tsr (s : State) : (s.selectHigh).tsr = s.tsr := rfl
@[simp] theorem State.selectHigh_rsr (s : State) : (s.selectHigh).rsr = s.rsr := rfl
@[simp] theorem State.selectHigh_bitcnt (s : State) : (s.selectHigh).bitcnt = s.bitcnt := rfl
@[simp] theorem State.selectHigh_busy (s : State) : (s.selectHigh).busy = s.busy := rfl
@[simp] theorem State.selectHigh_rxFresh (s : State) : (s.selectHigh).rxFresh = s.rxFresh := rfl
@[simp] theorem State.selectHigh_b2 (s : State) : (s.selectHigh).b2 = s.b2 := rfl
@[simp] theorem State.selectHigh_b3 (s : State) : (s.selectHigh).b3 = s.b3 := rfl
@[simp] theorem State.selectHigh_result (s : State) : (s.selectHigh).result = s.result := rfl
@[simp] theorem State.selectHigh_seq (s : State) : (s.selectHigh).seq = s.seq := rfl
@[simp] theorem State.selectHigh_refused (s : State) : (s.selectHigh).refused = s.refused := rfl
@[simp] theorem State.selectHigh_channelByte (s : State) : (s.selectHigh).channelByte = s.channelByte := rfl
@[simp] theorem State.selectHigh_hostOps (s : State) : (s.selectHigh).hostOps = s.hostOps := rfl
@[simp] theorem State.selectHigh_misoIn (s : State) : (s.selectHigh).misoIn = s.misoIn := rfl
@[simp] theorem State.selectHigh_drawCount (s : State) : (s.selectHigh).drawCount = s.drawCount := rfl
@[simp] theorem State.selectHigh_turnIn (s : State) : (s.selectHigh).turnIn = s.turnIn := rfl
@[simp] theorem State.selectHigh_turnCount (s : State) : (s.selectHigh).turnCount = s.turnCount := rfl
@[simp] theorem State.selectHigh_trace (s : State) : (s.selectHigh).trace = s.trace ++ [.csHigh] := rfl
@[simp] theorem State.selectHigh_responses (s : State) : (s.selectHigh).responses = s.responses := rfl

/-! ### `State.acceptByte` -/

@[simp] theorem State.acceptByte_csN (b : Byte) (s : State) : (s.acceptByte b).csN = s.csN := rfl
@[simp] theorem State.acceptByte_sclk (b : Byte) (s : State) : (s.acceptByte b).sclk = s.sclk := rfl
@[simp] theorem State.acceptByte_mosi (b : Byte) (s : State) : (s.acceptByte b).mosi = topBit b := rfl
@[simp] theorem State.acceptByte_txdr (b : Byte) (s : State) : (s.acceptByte b).txdr = some b := rfl
@[simp] theorem State.acceptByte_rxdr (b : Byte) (s : State) : (s.acceptByte b).rxdr = s.rxdr := rfl
@[simp] theorem State.acceptByte_tsr (b : Byte) (s : State) : (s.acceptByte b).tsr = some b := rfl
@[simp] theorem State.acceptByte_rsr (b : Byte) (s : State) : (s.acceptByte b).rsr = some 0x00#8 := rfl
@[simp] theorem State.acceptByte_bitcnt (b : Byte) (s : State) : (s.acceptByte b).bitcnt = 0#4 := rfl
@[simp] theorem State.acceptByte_busy (b : Byte) (s : State) : (s.acceptByte b).busy = true := rfl
@[simp] theorem State.acceptByte_rxFresh (b : Byte) (s : State) : (s.acceptByte b).rxFresh = s.rxFresh := rfl
@[simp] theorem State.acceptByte_b2 (b : Byte) (s : State) : (s.acceptByte b).b2 = s.b2 := rfl
@[simp] theorem State.acceptByte_b3 (b : Byte) (s : State) : (s.acceptByte b).b3 = s.b3 := rfl
@[simp] theorem State.acceptByte_result (b : Byte) (s : State) : (s.acceptByte b).result = s.result := rfl
@[simp] theorem State.acceptByte_seq (b : Byte) (s : State) : (s.acceptByte b).seq = s.seq := rfl
@[simp] theorem State.acceptByte_refused (b : Byte) (s : State) : (s.acceptByte b).refused = s.refused := rfl
@[simp] theorem State.acceptByte_channelByte (b : Byte) (s : State) : (s.acceptByte b).channelByte = s.channelByte := rfl
@[simp] theorem State.acceptByte_hostOps (b : Byte) (s : State) : (s.acceptByte b).hostOps = s.hostOps := rfl
@[simp] theorem State.acceptByte_misoIn (b : Byte) (s : State) : (s.acceptByte b).misoIn = s.misoIn := rfl
@[simp] theorem State.acceptByte_drawCount (b : Byte) (s : State) : (s.acceptByte b).drawCount = s.drawCount := rfl
@[simp] theorem State.acceptByte_turnIn (b : Byte) (s : State) : (s.acceptByte b).turnIn = s.turnIn := rfl
@[simp] theorem State.acceptByte_turnCount (b : Byte) (s : State) : (s.acceptByte b).turnCount = s.turnCount := rfl
@[simp] theorem State.acceptByte_trace (b : Byte) (s : State) : (s.acceptByte b).trace = s.trace ++ [.tx b] := rfl
@[simp] theorem State.acceptByte_responses (b : Byte) (s : State) : (s.acceptByte b).responses = s.responses := rfl

/-! ### `State.returnByte` -/

@[simp] theorem State.returnByte_csN (rd : BitVec 2) (v : Byte) (s : State) : (s.returnByte rd v).csN = s.csN := by
  simp [State.returnByte]
@[simp] theorem State.returnByte_sclk (rd : BitVec 2) (v : Byte) (s : State) : (s.returnByte rd v).sclk = s.sclk := by
  simp [State.returnByte]
@[simp] theorem State.returnByte_mosi (rd : BitVec 2) (v : Byte) (s : State) : (s.returnByte rd v).mosi = s.mosi := by
  simp [State.returnByte]
@[simp] theorem State.returnByte_txdr (rd : BitVec 2) (v : Byte) (s : State) : (s.returnByte rd v).txdr = s.txdr := by
  simp [State.returnByte]
@[simp] theorem State.returnByte_rxdr (rd : BitVec 2) (v : Byte) (s : State) : (s.returnByte rd v).rxdr = s.rxdr := by
  simp [State.returnByte]
@[simp] theorem State.returnByte_tsr (rd : BitVec 2) (v : Byte) (s : State) : (s.returnByte rd v).tsr = s.tsr := by
  simp [State.returnByte]
@[simp] theorem State.returnByte_rsr (rd : BitVec 2) (v : Byte) (s : State) : (s.returnByte rd v).rsr = s.rsr := by
  simp [State.returnByte]
@[simp] theorem State.returnByte_bitcnt (rd : BitVec 2) (v : Byte) (s : State) : (s.returnByte rd v).bitcnt = s.bitcnt := by
  simp [State.returnByte]
@[simp] theorem State.returnByte_busy (rd : BitVec 2) (v : Byte) (s : State) : (s.returnByte rd v).busy = s.busy := by
  simp [State.returnByte]
@[simp] theorem State.returnByte_rxFresh (rd : BitVec 2) (v : Byte) (s : State) : (s.returnByte rd v).rxFresh = false := by
  simp [State.returnByte]
@[simp] theorem State.returnByte_b2 (rd : BitVec 2) (v : Byte) (s : State) : (s.returnByte rd v).b2 = if rd = 2#2 then some v else s.b2 := by
  simp [State.returnByte]
@[simp] theorem State.returnByte_b3 (rd : BitVec 2) (v : Byte) (s : State) : (s.returnByte rd v).b3 = if rd = 3#2 then some v else s.b3 := by
  simp [State.returnByte]
@[simp] theorem State.returnByte_result (rd : BitVec 2) (v : Byte) (s : State) : (s.returnByte rd v).result = s.result := by
  simp [State.returnByte]
@[simp] theorem State.returnByte_seq (rd : BitVec 2) (v : Byte) (s : State) : (s.returnByte rd v).seq = s.seq := by
  simp [State.returnByte]
@[simp] theorem State.returnByte_refused (rd : BitVec 2) (v : Byte) (s : State) : (s.returnByte rd v).refused = s.refused := by
  simp [State.returnByte]
@[simp] theorem State.returnByte_channelByte (rd : BitVec 2) (v : Byte) (s : State) : (s.returnByte rd v).channelByte = s.channelByte := by
  simp [State.returnByte]
@[simp] theorem State.returnByte_hostOps (rd : BitVec 2) (v : Byte) (s : State) : (s.returnByte rd v).hostOps = s.hostOps := by
  simp [State.returnByte]
@[simp] theorem State.returnByte_misoIn (rd : BitVec 2) (v : Byte) (s : State) : (s.returnByte rd v).misoIn = s.misoIn := by
  simp [State.returnByte]
@[simp] theorem State.returnByte_drawCount (rd : BitVec 2) (v : Byte) (s : State) : (s.returnByte rd v).drawCount = s.drawCount := by
  simp [State.returnByte]
@[simp] theorem State.returnByte_turnIn (rd : BitVec 2) (v : Byte) (s : State) : (s.returnByte rd v).turnIn = s.turnIn := by
  simp [State.returnByte]
@[simp] theorem State.returnByte_turnCount (rd : BitVec 2) (v : Byte) (s : State) : (s.returnByte rd v).turnCount = s.turnCount := by
  simp [State.returnByte]
@[simp] theorem State.returnByte_trace (rd : BitVec 2) (v : Byte) (s : State) : (s.returnByte rd v).trace = s.trace ++ [.rx v] := by
  simp [State.returnByte]
@[simp] theorem State.returnByte_responses (rd : BitVec 2) (v : Byte) (s : State) : (s.returnByte rd v).responses = s.responses := by
  simp [State.returnByte]

/-! ### The bits of the transport's registers -/

@[simp] theorem State.tsrBits_of_some {s : State} {x : Byte} (h : s.tsr = some x) : s.tsrBits = x := by
  simp [State.tsrBits, h]
@[simp] theorem State.rsrBits_of_some {s : State} {x : Byte} (h : s.rsr = some x) : s.rsrBits = x := by
  simp [State.rsrBits, h]
@[simp] theorem State.rxdrBits_of_some {s : State} {x : Byte} (h : s.rxdr = some x) : s.rxdrBits = x := by
  simp [State.rxdrBits, h]
@[simp] theorem State.passTurn_tsrBits (s : State) : s.passTurn.tsrBits = s.tsrBits := by
  simp [State.tsrBits]
@[simp] theorem State.passTurn_rsrBits (s : State) : s.passTurn.rsrBits = s.rsrBits := by
  simp [State.rsrBits]
@[simp] theorem State.passTurn_rxdrBits (s : State) : s.passTurn.rxdrBits = s.rxdrBits := by
  simp [State.rxdrBits]

/-! ### `engineRise` -/

@[simp] theorem engineRise_csN (s : State) : (engineRise s).csN = s.csN := rfl
@[simp] theorem engineRise_sclk (s : State) : (engineRise s).sclk = true := rfl
@[simp] theorem engineRise_mosi (s : State) : (engineRise s).mosi = s.mosi := rfl
@[simp] theorem engineRise_txdr (s : State) : (engineRise s).txdr = s.txdr := rfl
@[simp] theorem engineRise_rxdr (s : State) : (engineRise s).rxdr = s.rxdr := rfl
@[simp] theorem engineRise_tsr (s : State) : (engineRise s).tsr = s.tsr := rfl
@[simp] theorem engineRise_rsr (s : State) : (engineRise s).rsr = some (shiftIn s.rsrBits s.misoLevel) := rfl
@[simp] theorem engineRise_bitcnt (s : State) : (engineRise s).bitcnt = s.bitcnt := rfl
@[simp] theorem engineRise_busy (s : State) : (engineRise s).busy = s.busy := rfl
@[simp] theorem engineRise_rxFresh (s : State) : (engineRise s).rxFresh = s.rxFresh := rfl
@[simp] theorem engineRise_b2 (s : State) : (engineRise s).b2 = s.b2 := rfl
@[simp] theorem engineRise_b3 (s : State) : (engineRise s).b3 = s.b3 := rfl
@[simp] theorem engineRise_result (s : State) : (engineRise s).result = s.result := rfl
@[simp] theorem engineRise_seq (s : State) : (engineRise s).seq = s.seq := rfl
@[simp] theorem engineRise_refused (s : State) : (engineRise s).refused = s.refused := rfl
@[simp] theorem engineRise_channelByte (s : State) : (engineRise s).channelByte = s.channelByte := rfl
@[simp] theorem engineRise_hostOps (s : State) : (engineRise s).hostOps = s.hostOps := rfl
@[simp] theorem engineRise_misoIn (s : State) : (engineRise s).misoIn = s.misoIn.tail := rfl
@[simp] theorem engineRise_drawCount (s : State) : (engineRise s).drawCount = s.drawCount + 1 := rfl
@[simp] theorem engineRise_turnIn (s : State) : (engineRise s).turnIn = s.turnIn := rfl
@[simp] theorem engineRise_turnCount (s : State) : (engineRise s).turnCount = s.turnCount := rfl
@[simp] theorem engineRise_trace (s : State) : (engineRise s).trace = s.trace ++ [.rise s.mosi s.misoLevel] := rfl
@[simp] theorem engineRise_responses (s : State) : (engineRise s).responses = s.responses := rfl

/-! ### `engineFall` -/

@[simp] theorem engineFall_csN (s : State) : (engineFall s).csN = s.csN := rfl
@[simp] theorem engineFall_sclk (s : State) : (engineFall s).sclk = false := rfl
@[simp] theorem engineFall_mosi (s : State) : (engineFall s).mosi = topBit (shiftOut s.tsrBits) := rfl
@[simp] theorem engineFall_txdr (s : State) : (engineFall s).txdr = s.txdr := rfl
@[simp] theorem engineFall_rxdr (s : State) : (engineFall s).rxdr = s.rxdr := rfl
@[simp] theorem engineFall_tsr (s : State) : (engineFall s).tsr = some (shiftOut s.tsrBits) := rfl
@[simp] theorem engineFall_rsr (s : State) : (engineFall s).rsr = s.rsr := rfl
@[simp] theorem engineFall_bitcnt (s : State) : (engineFall s).bitcnt = s.bitcnt + 1#4 := rfl
@[simp] theorem engineFall_busy (s : State) : (engineFall s).busy = s.busy := rfl
@[simp] theorem engineFall_rxFresh (s : State) : (engineFall s).rxFresh = s.rxFresh := rfl
@[simp] theorem engineFall_b2 (s : State) : (engineFall s).b2 = s.b2 := rfl
@[simp] theorem engineFall_b3 (s : State) : (engineFall s).b3 = s.b3 := rfl
@[simp] theorem engineFall_result (s : State) : (engineFall s).result = s.result := rfl
@[simp] theorem engineFall_seq (s : State) : (engineFall s).seq = s.seq := rfl
@[simp] theorem engineFall_refused (s : State) : (engineFall s).refused = s.refused := rfl
@[simp] theorem engineFall_channelByte (s : State) : (engineFall s).channelByte = s.channelByte := rfl
@[simp] theorem engineFall_hostOps (s : State) : (engineFall s).hostOps = s.hostOps := rfl
@[simp] theorem engineFall_misoIn (s : State) : (engineFall s).misoIn = s.misoIn := rfl
@[simp] theorem engineFall_drawCount (s : State) : (engineFall s).drawCount = s.drawCount := rfl
@[simp] theorem engineFall_turnIn (s : State) : (engineFall s).turnIn = s.turnIn := rfl
@[simp] theorem engineFall_turnCount (s : State) : (engineFall s).turnCount = s.turnCount := rfl
@[simp] theorem engineFall_trace (s : State) : (engineFall s).trace = s.trace ++ [.fall] := rfl
@[simp] theorem engineFall_responses (s : State) : (engineFall s).responses = s.responses := rfl

/-! ### `engineLast` -/

@[simp] theorem engineLast_csN (s : State) : (engineLast s).csN = s.csN := rfl
@[simp] theorem engineLast_sclk (s : State) : (engineLast s).sclk = false := rfl
@[simp] theorem engineLast_mosi (s : State) : (engineLast s).mosi = s.mosi := rfl
@[simp] theorem engineLast_txdr (s : State) : (engineLast s).txdr = s.txdr := rfl
@[simp] theorem engineLast_rxdr (s : State) : (engineLast s).rxdr = s.rsr := rfl
@[simp] theorem engineLast_tsr (s : State) : (engineLast s).tsr = s.tsr := rfl
@[simp] theorem engineLast_rsr (s : State) : (engineLast s).rsr = s.rsr := rfl
@[simp] theorem engineLast_bitcnt (s : State) : (engineLast s).bitcnt = 8#4 := rfl
@[simp] theorem engineLast_busy (s : State) : (engineLast s).busy = false := rfl
@[simp] theorem engineLast_rxFresh (s : State) : (engineLast s).rxFresh = true := rfl
@[simp] theorem engineLast_b2 (s : State) : (engineLast s).b2 = s.b2 := rfl
@[simp] theorem engineLast_b3 (s : State) : (engineLast s).b3 = s.b3 := rfl
@[simp] theorem engineLast_result (s : State) : (engineLast s).result = s.result := rfl
@[simp] theorem engineLast_seq (s : State) : (engineLast s).seq = s.seq := rfl
@[simp] theorem engineLast_refused (s : State) : (engineLast s).refused = s.refused := rfl
@[simp] theorem engineLast_channelByte (s : State) : (engineLast s).channelByte = s.channelByte := rfl
@[simp] theorem engineLast_hostOps (s : State) : (engineLast s).hostOps = s.hostOps := rfl
@[simp] theorem engineLast_misoIn (s : State) : (engineLast s).misoIn = s.misoIn := rfl
@[simp] theorem engineLast_drawCount (s : State) : (engineLast s).drawCount = s.drawCount := rfl
@[simp] theorem engineLast_turnIn (s : State) : (engineLast s).turnIn = s.turnIn := rfl
@[simp] theorem engineLast_turnCount (s : State) : (engineLast s).turnCount = s.turnCount := rfl
@[simp] theorem engineLast_trace (s : State) : (engineLast s).trace = s.trace ++ [.fall] := rfl
@[simp] theorem engineLast_responses (s : State) : (engineLast s).responses = s.responses := rfl

end Sys2Proof.Machine
end

