-- ==== Sys2Proof/Laws/Ops.lean ====
section
/-! SUPPORT. One lemma per shared operation that says once everything it can do: the outcomes of an
operation, of a sub-step of `CONVERT` and of an edge of ENG. -/

namespace Sys2Proof.Machine

variable {s t : State} {v : Option Sample}

/-! ### An attempt as an operation and as a sub-step -/

theorem asOperation_next {a : Attempt} :
    a.asOperation s = .next t ↔ (a = .hold ∧ t = s) ∨ ∃ v u, a = .done v u ∧ t = u.complete v := by
  cases a <;> simp [Attempt.asOperation, eq_comm]

theorem asOperation_refused {a : Attempt} {r : Refusal} :
    a.asOperation s = .refused r ↔ a = .refuse r := by
  cases a <;> simp [Attempt.asOperation]

theorem asSubStep_next {a : Attempt} :
    a.asSubStep s = .next t ↔ (a = .hold ∧ t = s) ∨
      (∃ v u, a = .done v u ∧ s.seq = 9#4 ∧ t = State.complete v { u with seq := 0#4 }) ∨
      ∃ v u, a = .done v u ∧ s.seq ≠ 9#4 ∧ t = { u with seq := s.seq + 1#4 } := by
  cases a with
  | refuse r => simp [Attempt.asSubStep]
  | hold => simp [Attempt.asSubStep, eq_comm]
  | done v u => by_cases h : s.seq = 9#4 <;> simp [Attempt.asSubStep, h, eq_comm]

theorem asSubStep_refused {a : Attempt} {r : Refusal} :
    a.asSubStep s = .refused r ↔ a = .refuse r := by
  cases a with
  | refuse r => simp [Attempt.asSubStep]
  | hold => simp [Attempt.asSubStep]
  | done v u => by_cases h : s.seq = 9#4 <;> simp [Attempt.asSubStep, h]

/-! ### The byte primitives and the assembler -/

theorem bytePending_eq_false : s.bytePending = false ↔ s.busy = false ∧ s.rxFresh = false := by
  simp [State.bytePending]

theorem transmitByte_done {b : Byte} :
    transmitByte b s = .done v t ↔ s.bytePending = false ∧ v = none ∧ t = s.acceptByte b := by
  unfold transmitByte
  split
  · simp_all
  · simp_all only [Attempt.done.injEq, Bool.not_eq_true, true_and]
    exact and_congr eq_comm eq_comm

theorem transmitByte_not_hold {b : Byte} : transmitByte b s ≠ .hold := by
  unfold transmitByte; split <;> simp

theorem transmitByte_refuse {b : Byte} {r : Refusal} :
    transmitByte b s = .refuse r ↔ s.bytePending = true ∧ r = .transmitWhilePending := by
  unfold transmitByte
  split
  · simp_all only [Attempt.refuse.injEq, true_and]
    exact eq_comm
  · simp_all

theorem receiveByte_done {rd : BitVec 2} :
    receiveByte rd s = .done v t ↔
      s.busy = false ∧ s.rxFresh = true ∧ v = some (zext10 s.rxdrBits)
        ∧ t = s.returnByte rd s.rxdrBits := by
  unfold receiveByte State.bytePending
  cases s.busy <;> cases s.rxFresh <;> simp [eq_comm]

theorem receiveByte_hold {rd : BitVec 2} : receiveByte rd s = .hold ↔ s.busy = true := by
  unfold receiveByte State.bytePending
  cases s.busy <;> cases s.rxFresh <;> simp

theorem receiveByte_refuse {rd : BitVec 2} {r : Refusal} :
    receiveByte rd s = .refuse r ↔ s.bytePending = false ∧ r = .receiveWithoutTransmit := by
  unfold receiveByte State.bytePending
  cases s.busy <;> cases s.rxFresh <;> simp [eq_comm]

theorem assembleResult_done :
    assembleResult s = .done v t ↔
      ∃ x y, s.b2 = some x ∧ s.b3 = some y ∧ v = some (assembleBytes x y)
        ∧ t = State.emit (.result (assembleBytes x y)) { s with result := some (assembleBytes x y) } := by
  unfold assembleResult
  cases s.b2 <;> cases s.b3 <;> simp [eq_comm]

theorem assembleResult_not_hold : assembleResult s ≠ .hold := by
  unfold assembleResult
  cases s.b2 <;> cases s.b3 <;> simp

theorem assembleResult_refuse {r : Refusal} :
    assembleResult s = .refuse r ↔ (s.b2 = none ∨ s.b3 = none) ∧ r = .unwrittenRegister := by
  unfold assembleResult
  cases s.b2 <;> cases s.b3 <;> simp [eq_comm]

/-! ### The host's operations -/

/-- Every next state an operation of the host can come to. -/
inductive OperationTo (s : State) : Instr → State → Prop
  | held (rd : BitVec 2) : rd ≠ 1#2 → s.busy = true → OperationTo s (.receive rd) s
  | select : OperationTo s .select (s.selectLow.complete none)
  | deselect : OperationTo s .deselect (s.selectHigh.complete none)
  | transmit (b : Byte) : s.bytePending = false →
      OperationTo s (.transmit b) ((s.acceptByte b).complete none)
  | receive (rd : BitVec 2) : rd ≠ 1#2 → s.busy = false → s.rxFresh = true →
      OperationTo s (.receive rd)
        ((s.returnByte rd s.rxdrBits).complete (some (zext10 s.rxdrBits)))
  | assemble (x y : Byte) : s.b2 = some x → s.b3 = some y →
      OperationTo s .assemble (State.complete (some (assembleBytes x y))
        (State.emit (.result (assembleBytes x y)) { s with result := some (assembleBytes x y) }))
  | accept : s.idle = true → OperationTo s .convert { s with seq := 1#4 }

theorem exec_next {i : Instr} (h : exec i s = .next t) : OperationTo s i t := by
  cases i with
  | select => exact (Host.Outcome.next.inj h) ▸ .select
  | deselect => exact (Host.Outcome.next.inj h) ▸ .deselect
  | transmit b =>
    obtain ⟨e, -⟩ | ⟨v, u, e, rfl⟩ := asOperation_next.1 h
    · exact absurd e transmitByte_not_hold
    · obtain ⟨hp, rfl, rfl⟩ := transmitByte_done.1 e
      exact .transmit b hp
  | receive rd =>
    simp only [exec, execReceive] at h
    split at h
    · cases h
    · obtain ⟨e, rfl⟩ | ⟨v, u, e, rfl⟩ := asOperation_next.1 h
      · exact .held rd ‹_› (receiveByte_hold.1 e)
      · obtain ⟨hb, hf, rfl, rfl⟩ := receiveByte_done.1 e
        exact .receive rd ‹_› hb hf
  | assemble =>
    obtain ⟨e, -⟩ | ⟨v, u, e, rfl⟩ := asOperation_next.1 h
    · exact absurd e assembleResult_not_hold
    · obtain ⟨x, y, hx, hy, rfl, rfl⟩ := assembleResult_done.1 e
      exact .assemble x y hx hy
  | convert =>
    simp only [exec, execConvert] at h
    split at h
    · exact (Host.Outcome.next.inj h) ▸ .accept ‹_›
    · cases h

/-! ### The sub-steps of `CONVERT` -/

/-- Every next state a step of SEQ can come to while a `CONVERT` is in progress. -/
inductive SubStepTo (s : State) : State → Prop
  | still : s.seq = 0#4 ∨ 9#4 < s.seq → SubStepTo s s
  | held : s.seq = 3#4 ∨ s.seq = 5#4 ∨ s.seq = 7#4 → s.busy = true → SubStepTo s s
  | select : s.seq = 1#4 → SubStepTo s { s.selectLow with seq := 2#4 }
  | transmit (b : Byte) : (s.seq = 2#4 ∧ b = startByte) ∨ (s.seq = 4#4 ∧ b = s.channelByte) ∨
      (s.seq = 6#4 ∧ b = fillerByte) → s.bytePending = false →
      SubStepTo s { s.acceptByte b with seq := s.seq + 1#4 }
  | receive (rd : BitVec 2) : (s.seq = 3#4 ∧ rd = 0#2) ∨ (s.seq = 5#4 ∧ rd = 2#2) ∨
      (s.seq = 7#4 ∧ rd = 3#2) → s.busy = false → s.rxFresh = true →
      SubStepTo s { s.returnByte rd s.rxdrBits with seq := s.seq + 1#4 }
  | deselect : s.seq = 8#4 → SubStepTo s { s.selectHigh with seq := 9#4 }
  | assemble (x y : Byte) : s.seq = 9#4 → s.b2 = some x → s.b3 = some y →
      SubStepTo s (State.complete (some (assembleBytes x y))
        { State.emit (.result (assembleBytes x y)) { s with result := some (assembleBytes x y) } with
          seq := 0#4 })

/-- What sub-step `k` is, number by number. -/
theorem convertAction_cases (k : BitVec 4) (s : State) :
    (k = 1#4 ∧ convertAction k s = some (assertSelect s)) ∨
    (∃ b, ((k = 2#4 ∧ b = startByte) ∨ (k = 4#4 ∧ b = s.channelByte) ∨ (k = 6#4 ∧ b = fillerByte)) ∧
      convertAction k s = some (transmitByte b s)) ∨
    (∃ rd, ((k = 3#4 ∧ rd = 0#2) ∨ (k = 5#4 ∧ rd = 2#2) ∨ (k = 7#4 ∧ rd = 3#2)) ∧
      convertAction k s = some (receiveByte rd s)) ∨
    (k = 8#4 ∧ convertAction k s = some (deassertSelect s)) ∨
    (k = 9#4 ∧ convertAction k s = some (assembleResult s)) ∨
    ((k = 0#4 ∨ 9#4 < k) ∧ convertAction k s = none) := by
  have hk : ∀ k : BitVec 4, k = 0#4 ∨ k = 1#4 ∨ k = 2#4 ∨ k = 3#4 ∨ k = 4#4 ∨ k = 5#4 ∨ k = 6#4 ∨
    k = 7#4 ∨ k = 8#4 ∨ k = 9#4 ∨ k = 10#4 ∨ k = 11#4 ∨ k = 12#4 ∨ k = 13#4 ∨ k = 14#4 ∨ k = 15#4 := by
    decide
  rcases hk k with rfl | rfl | rfl | rfl | rfl | rfl | rfl | rfl | rfl | rfl | rfl | rfl | rfl | rfl |
    rfl | rfl <;> simp [convertAction]

theorem convertStep_next (h : convertStep s = .next t) : SubStepTo s t := by
  unfold convertStep at h
  obtain ⟨hk, e⟩ | ⟨b, hk, e⟩ | ⟨rd, hk, e⟩ | ⟨hk, e⟩ | ⟨hk, e⟩ | ⟨hk, e⟩ := convertAction_cases s.seq s
    <;> simp only [e] at h
  · simp only [assertSelect, asSubStep_next, hk] at h
    simp at h
    exact h ▸ .select hk
  · have h9 : s.seq ≠ 9#4 := by rcases hk with ⟨k, -⟩ | ⟨k, -⟩ | ⟨k, -⟩ <;> simp [k]
    obtain ⟨e, -⟩ | ⟨v, u, -, e, -⟩ | ⟨v, u, e, -, rfl⟩ := asSubStep_next.1 h
    · exact absurd e transmitByte_not_hold
    · exact absurd e h9
    · obtain ⟨hp, -, rfl⟩ := transmitByte_done.1 e
      exact .transmit b hk hp
  · have h9 : s.seq ≠ 9#4 := by rcases hk with ⟨k, -⟩ | ⟨k, -⟩ | ⟨k, -⟩ <;> simp [k]
    obtain ⟨e, rfl⟩ | ⟨v, u, -, e, -⟩ | ⟨v, u, e, -, rfl⟩ := asSubStep_next.1 h
    · exact .held (hk.imp And.left (Or.imp And.left And.left)) (receiveByte_hold.1 e)
    · exact absurd e h9
    · obtain ⟨hb, hf, -, rfl⟩ := receiveByte_done.1 e
      exact .receive rd hk hb hf
  · simp only [deassertSelect, asSubStep_next, hk] at h
    simp at h
    exact h ▸ .deselect hk
  · obtain ⟨e, -⟩ | ⟨v, u, e, -, rfl⟩ | ⟨v, u, -, e, -⟩ := asSubStep_next.1 h
    · exact absurd e assembleResult_not_hold
    · obtain ⟨x, y, hx, hy, rfl, rfl⟩ := assembleResult_done.1 e
      exact .assemble x y hk hx hy
    · exact absurd hk e
  · exact (Host.Outcome.next.inj h) ▸ .still hk

/-! ### The edges of ENG -/

/-- Every next state a step of ENG can come to. -/
inductive EdgeTo (s : State) : State → Prop
  | rise : s.busy = true → s.sclk = false → EdgeTo s (engineRise s)
  | fall : s.busy = true → s.sclk = true → s.bitcnt < 7#4 → EdgeTo s (engineFall s)
  | last : s.busy = true → s.sclk = true → s.bitcnt = 7#4 → EdgeTo s (engineLast s)
  | still : s.busy = false ∨ (s.sclk = true ∧ 7#4 < s.bitcnt) → EdgeTo s s

/-- ENG's step is always a next state, and one of these. -/
theorem engineEdge_spec (s : State) : ∃ t, engineEdge s = .next t ∧ EdgeTo s t := by
  unfold engineEdge
  split
  · exact ⟨_, rfl, .still (.inl (by simpa using ‹(!s.busy) = true›))⟩
  have hb : s.busy = true := by simpa using ‹¬ (!s.busy) = true›
  split
  · exact ⟨_, rfl, .rise hb (by simpa using ‹(!s.sclk) = true›)⟩
  have hs : s.sclk = true := by simpa using ‹¬ (!s.sclk) = true›
  split
  · exact ⟨_, rfl, .fall hb hs ‹_›⟩
  split
  · exact ⟨_, rfl, .last hb hs ‹_›⟩
  · exact ⟨_, rfl, .still (.inr ⟨hs, by bv_omega⟩)⟩

theorem engineEdge_next (h : engineEdge s = .next t) : EdgeTo s t := by
  obtain ⟨u, hu, hs⟩ := engineEdge_spec s
  exact Host.Outcome.next.inj (hu.symm.trans h) ▸ hs

end Sys2Proof.Machine
end

