-- ==== Sys2Proof/Laws/Step.lean ====
section
/-! SUPPORT. What one step of the block can do, said once, and the laws of runs. -/

namespace Sys2Proof.Machine

variable {s t : State}

theorem passTurn_of_quiet (h : s.busy = false) : s.passTurn = s := by
  simp [State.passTurn, h]

theorem passTurn_of_busy (h : s.busy = true) :
    s.passTurn = { s with turnIn := s.turnIn.tail, turnCount := s.turnCount + 1 } := by
  simp [State.passTurn, h]

theorem engineMoves_busy (h : s.engineMoves = true) : s.busy = true := by
  simp only [State.engineMoves, Bool.and_eq_true] at h
  exact h.1

@[simp] theorem engineMoves_of_quiet (h : s.busy = false) : s.engineMoves = false := by
  simp [State.engineMoves, h]

/-! ### The three branches of a step -/

theorem step_of_engine (h : s.engineMoves = true) : step s = engineEdge s.passTurn := by
  simp [step, h]

theorem step_of_subStep (h : s.engineMoves = false) (hq : s.seq ≠ 0#4) :
    step s = convertStep s.passTurn := by
  simp [step, h, hq]

theorem step_of_idlePort (h : s.engineMoves = false) (hq : s.seq = 0#4) (hc : s.command = none) :
    step s = .next s.passTurn := by
  simp [step, h, hq, hc]

theorem step_of_reserved {w : Cmd} (h : s.engineMoves = false) (hq : s.seq = 0#4)
    (hc : s.command = some w) (hw : decode w = .reservedCommand) :
    step s = .refused .reservedCommand := by
  simp [step, h, hq, hc, hw]

/-- Every next state a step can come to. -/
inductive StepTo (s : State) : State → Prop
  | engine {t : State} : s.engineMoves = true → EdgeTo s.passTurn t → StepTo s t
  | subStep {t : State} : s.engineMoves = false → s.seq ≠ 0#4 → SubStepTo s.passTurn t → StepTo s t
  | idlePort : s.engineMoves = false → s.seq = 0#4 → s.command = none → StepTo s s.passTurn
  | operation {t : State} (w : Cmd) (i : Instr) : s.engineMoves = false → s.seq = 0#4 →
      s.command = some w → decode w = .op i → OperationTo s.passTurn i t → StepTo s t

theorem step_next (h : step s = .next t) : StepTo s t := by
  unfold step at h
  split at h
  · exact .engine ‹_› (engineEdge_next h)
  have hm : s.engineMoves = false := by simpa using ‹¬ s.engineMoves = true›
  split at h
  · exact .subStep hm ‹_› (convertStep_next h)
  have hq : s.seq = 0#4 := by simpa using ‹¬ s.seq ≠ 0#4›
  split at h
  · exact (Host.Outcome.next.inj h) ▸ .idlePort hm hq ‹_›
  split at h
  · cases h
  · exact .operation _ _ hm hq ‹_› ‹_› (exec_next h)

/-! ### Runs -/

theorem run_zero : run 0 s = .next s := rfl

theorem run_succ_of_next {k : Nat} (h : step s = .next t) : run (k + 1) s = run k t := by
  simp [run, h]

theorem run_add {j k : Nat} (h : run j s = .next t) : run (j + k) s = run k t := by
  induction j generalizing s with
  | zero => rw [Nat.zero_add]; exact (Host.Outcome.next.inj h) ▸ rfl
  | succ j ih =>
    rw [Nat.add_right_comm]
    cases hs : step s with
    | next u =>
      rw [run_succ_of_next hs] at h ⊢
      exact ih h
    | fault r => simp [run, hs] at h
    | refused r => simp [run, hs] at h

end Sys2Proof.Machine
end

