-- ==== Sys2Proof/Laws/Byte.lean ====
section
/-! SUPPORT. One byte on the wire, edge by edge: the state in the middle of a byte as a function of how many
of its sixteen edges have been taken, what each edge and each held turn makes of it, and the whole byte in
any order of the agents (R62, R64 to R69, R73). -/

namespace Sys2Proof.Machine

/-- `s` with the byte `b` going out and `r` coming in, after `k` of the first fifteen edges; `ms` are the
answers fixed for later bytes. -/
def midByte (b r : Byte) (ms : List Level) (k : Nat) (s : State) : State :=
  { s with
    busy := true
    rxFresh := false
    txdr := some b
    sclk := k % 2 == 1
    bitcnt := BitVec.ofNat 4 (k / 2)
    tsr := some (b <<< (k / 2))
    rsr := some (r >>> (8 - (k + 1) / 2))
    mosi := b.getLsbD (7 - k / 2)
    misoIn := (bitsOnWire r).drop ((k + 1) / 2) ++ ms
    drawCount := s.drawCount + (k + 1) / 2
    trace := s.trace ++ (byteWave b r).take k }

/-- `s` after the sixteenth edge of the byte `b` against `r`. -/
def afterByte (b r : Byte) (ms : List Level) (s : State) : State :=
  { s with
    busy := false
    rxFresh := true
    txdr := some b
    rxdr := some r
    sclk := false
    bitcnt := 8#4
    tsr := some (b <<< 7)
    rsr := some r
    mosi := b.getLsbD 0
    misoIn := ms
    drawCount := s.drawCount + 8
    trace := s.trace ++ byteWave b r }

/-- `s` with the next choice of agent used up. -/
def nextTurn (s : State) : State := { s with turnIn := s.turnIn.tail, turnCount := s.turnCount + 1 }

@[simp] theorem midByte_busy (b r : Byte) (ms : List Level) (k : Nat) (s : State) :
    (midByte b r ms k s).busy = true := rfl
@[simp] theorem midByte_seq (b r : Byte) (ms : List Level) (k : Nat) (s : State) :
    (midByte b r ms k s).seq = s.seq := rfl
@[simp] theorem midByte_hostOps (b r : Byte) (ms : List Level) (k : Nat) (s : State) :
    (midByte b r ms k s).hostOps = s.hostOps := rfl
@[simp] theorem midByte_turnIn (b r : Byte) (ms : List Level) (k : Nat) (s : State) :
    (midByte b r ms k s).turnIn = s.turnIn := rfl

theorem midByte_passTurn (b r : Byte) (ms : List Level) (k : Nat) (s : State) :
    (midByte b r ms k s).passTurn = midByte b r ms k (nextTurn s) := rfl

theorem ushiftRight_eight : ∀ r : Byte, r >>> 8 = 0#8 := by decide

/-- The bit drawn at each rising edge joins the bits received before it. -/
theorem shiftIn_received : ∀ r : Byte,
    shiftIn (r >>> 8) r[7] = r >>> 7 ∧ shiftIn (r >>> 7) r[6] = r >>> 6 ∧
    shiftIn (r >>> 6) r[5] = r >>> 5 ∧ shiftIn (r >>> 5) r[4] = r >>> 4 ∧
    shiftIn (r >>> 4) r[3] = r >>> 3 ∧ shiftIn (r >>> 3) r[2] = r >>> 2 ∧
    shiftIn (r >>> 2) r[1] = r >>> 1 ∧ shiftIn (r >>> 1) r[0] = r := by
  decide

theorem shiftOut_eq : ∀ b : Byte, shiftOut b = b <<< 1 := by decide

/-- After each falling edge the next lower bit is at the top. -/
theorem topBit_shiftLeft : ∀ b : Byte,
    topBit b = b[7] ∧ topBit (b <<< 1) = b[6] ∧ topBit (b <<< 2) = b[5] ∧ topBit (b <<< 3) = b[4] ∧
    topBit (b <<< 4) = b[3] ∧ topBit (b <<< 5) = b[2] ∧ topBit (b <<< 6) = b[1] ∧
    topBit (b <<< 7) = b[0] := by
  decide

/-- The acceptance of a byte into the free shift path, with the clock idle, is the state before its first
edge. -/
theorem acceptByte_eq_midByte (b r : Byte) (ms : List Level) (s : State) (hf : s.rxFresh = false)
    (hc : s.sclk = false) (hm : s.misoIn = bitsOnWire r ++ ms) :
    s.acceptByte b = midByte b r ms 0 (s.emit (.tx b)) := by
  have hw : (bitsOnWire r).drop 0 ++ ms = s.misoIn := hm.symm
  simp [State.acceptByte, State.emit, midByte, topBit, hf, hc, ushiftRight_eight, hm]

/-- An edge before the sixteenth leads to the state with one edge more. -/
theorem engineEdge_midByte (b r : Byte) (ms : List Level) (k : Nat) (s : State) (hk : k < 15) :
    engineEdge (midByte b r ms k s) = .next (midByte b r ms (k + 1) s) := by
  interval_cases k <;>
    simp [engineEdge, midByte, engineRise, engineFall, State.rsrBits, State.tsrBits, State.misoLevel,
      State.drawn, State.emit,
      bitsOnWire, byteWave, shiftIn_received, shiftOut_eq, topBit_shiftLeft,
      ← BitVec.shiftLeft_add]

/-- The sixteenth edge completes the byte. -/
theorem engineEdge_lastEdge (b r : Byte) (ms : List Level) (s : State) :
    engineEdge (midByte b r ms 15 s) = .next (afterByte b r ms s) := by
  simp [engineEdge, midByte, afterByte, engineLast, State.emit, bitsOnWire, byteWave]

/-! ### A whole byte in any order of the agents -/

/-- SEQ is in a hold on the byte in flight: the host's `RECEIVE` or an inner one of `CONVERT`. -/
def SeqHolds (s : State) : Prop :=
  (s.seq = 0#4 ∧ ∃ rd, rd ≠ 1#2 ∧ (s.command.map decode) = some (.op (.receive rd))) ∨
    s.seq = 3#4 ∨ s.seq = 5#4 ∨ s.seq = 7#4

/-- In a hold a step that falls on SEQ uses up the choice of agent and nothing else. -/
theorem step_of_hold {s : State} (h : SeqHolds s) (hb : s.busy = true) (hm : s.engineMoves = false) :
    step s = .next (nextTurn s) := by
  have hp : s.passTurn = nextTurn s := passTurn_of_busy hb
  have hh : ∀ rd, receiveByte rd s.passTurn = .hold := fun rd => receiveByte_hold.2 (by simpa using hb)
  rw [← hp]
  rcases h with ⟨hq, rd, hrd, hc⟩ | hq | hq | hq
  · obtain ⟨w, hw, hd⟩ := Option.map_eq_some_iff.1 hc
    simp [step, hm, hq, hw, hd, exec, execReceive, hrd, hh, Attempt.asOperation]
  all_goals
    simp [step, hm, hq, convertStep, convertAction, hh, Attempt.asSubStep]

theorem midByte_engineMoves (b r : Byte) (ms : List Level) (k : Nat) (s : State) :
    (midByte b r ms k s).engineMoves = (s.turn == .engine) := rfl

theorem nextTurn_iterate (n : Nat) (s : State) :
    nextTurn^[n] s = { s with turnIn := s.turnIn.drop n, turnCount := s.turnCount + n } := by
  induction n generalizing s with
  | zero => rfl
  | succ n ih => rw [Function.iterate_succ_apply, ih]; simp [nextTurn, Nat.add_comm, Nat.add_left_comm]

theorem seqHolds_midByte {b r : Byte} {ms : List Level} {k : Nat} {s : State} (h : SeqHolds s) :
    SeqHolds (midByte b r ms k s) := h

theorem seqHolds_nextTurn {s : State} (h : SeqHolds s) : SeqHolds (nextTurn s) := h

theorem turnAt_zero (s : State) : s.turnAt 0 = s.turn := by
  unfold State.turnAt State.turn
  cases s.turnIn <;> simp

theorem turnAt_succ {s : State} (hb : s.busy = true) (i : Nat) :
    s.turnAt (i + 1) = s.passTurn.turnAt i := by
  rw [passTurn_of_busy hb]
  simp [State.turnAt, Nat.add_comm, Nat.add_left_comm]

/-- ENG's turns among the next choices, the first one taken off. -/
theorem engineTurns_succ {s : State} (hb : s.busy = true) (n : Nat) :
    s.engineTurns (n + 1) = (if s.turn = .engine then 1 else 0) + s.passTurn.engineTurns n := by
  unfold State.engineTurns
  rw [List.range_succ_eq_map, List.countP_cons, List.countP_map, turnAt_zero, Nat.add_comm]
  congr 1
  · simp
  · congr 1
    funext i
    simp [turnAt_succ hb]

/-- From any edge on, an order of the agents that gives ENG its remaining turns, the last one at the end,
completes the byte while SEQ holds. -/
theorem run_midByte (b r : Byte) (ms : List Level) (turns : List Agent) (ts : List Agent) :
    ∀ (k : Nat) (s : State), SeqHolds s → k ≤ 15 → ts.count .engine = 16 - k →
      ts.getLast? = some .engine → s.turnIn = ts ++ turns →
      run ts.length (midByte b r ms k s)
        = .next (afterByte b r ms { s with turnIn := turns, turnCount := s.turnCount + ts.length }) := by
  induction ts with
  | nil => intro k s _ _ _ hl; simp at hl
  | cons a ts ih =>
    intro k s hh hk hc hl ht
    have hturn : s.turn = a := by simp [State.turn, ht]
    have htail : (nextTurn s).turnIn = ts ++ turns := by simp [nextTurn, ht]
    have hpass : (midByte b r ms k s).passTurn = midByte b r ms k (nextTurn s) := rfl
    have hlast : ts ≠ [] → ts.getLast? = some .engine := fun hne => by
      cases ts with
      | nil => exact absurd rfl hne
      | cons c cs => simpa using hl
    cases a with
    | sequencer =>
      have hne : ts ≠ [] := by rintro rfl; simp at hl
      have hs : step (midByte b r ms k s) = .next (midByte b r ms k (nextTurn s)) :=
        step_of_hold (seqHolds_midByte hh) rfl (by rw [midByte_engineMoves, hturn]; rfl)
      rw [List.length_cons, run_succ_of_next hs,
        ih k (nextTurn s) (seqHolds_nextTurn hh) hk (by simpa using hc) (hlast hne) htail]
      simp [nextTurn, Nat.add_comm, Nat.add_left_comm]
    | engine =>
      have hm : (midByte b r ms k s).engineMoves = true := by rw [midByte_engineMoves, hturn]; rfl
      rcases Nat.lt_or_ge k 15 with h15 | h15
      · have hne : ts ≠ [] := by rintro rfl; simp at hc; omega
        have hs : step (midByte b r ms k s) = .next (midByte b r ms (k + 1) (nextTurn s)) := by
          rw [step_of_engine hm, hpass, engineEdge_midByte b r ms k _ h15]
        rw [List.length_cons, run_succ_of_next hs,
          ih (k + 1) (nextTurn s) (seqHolds_nextTurn hh) h15 (by simp at hc; omega) (hlast hne) htail]
        simp [nextTurn, Nat.add_comm, Nat.add_left_comm]
      · obtain rfl : k = 15 := by omega
        have hnil : ts = [] := by
          by_contra hne
          have : 0 < ts.count .engine := List.count_pos_iff.2 (List.mem_of_getLast? (hlast hne))
          simp at hc; omega
        subst hnil
        have hs : step (midByte b r ms 15 s) = .next (afterByte b r ms (nextTurn s)) := by
          rw [step_of_engine hm, hpass, engineEdge_lastEdge]
        rw [List.length_cons, run_succ_of_next hs]
        simp [run, nextTurn, ht]

end Sys2Proof.Machine
end

