-- ==== Sys2Proof/Laws/PerInstr.lean ====
section
/-! SUPPORT. What holds of each operation as syntax, one lemma per constructor (spec/30_encoding.md rule
R49). -/

namespace Sys2Proof.Laws

/-- The row of the operation table an operation belongs to. -/
def EncodingRow.rowOf : Instr → Cmd × Cmd
  | .select => rowSelect
  | .deselect => rowDeselect
  | .transmit _ => rowTransmit
  | .receive _ => rowReceive
  | .assemble => rowAssemble
  | .convert => rowConvert

/-- The word the encoder writes selects the operation's own row by match and mask, whatever its operands. -/
def EncodingRow.Statement (i : Instr) : Prop := selectsRow (encode i) (EncodingRow.rowOf i) = true

theorem EncodingRow.select : EncodingRow.Statement .select := by
  unfold EncodingRow.Statement; decide

theorem EncodingRow.deselect : EncodingRow.Statement .deselect := by
  unfold EncodingRow.Statement; decide

theorem EncodingRow.transmit (imm8 : Byte) : EncodingRow.Statement (.transmit imm8) := by
  unfold EncodingRow.Statement; revert imm8; decide

theorem EncodingRow.receive (rd : BitVec 2) : EncodingRow.Statement (.receive rd) := by
  unfold EncodingRow.Statement; revert rd; decide

theorem EncodingRow.assemble : EncodingRow.Statement .assemble := by
  unfold EncodingRow.Statement; decide

theorem EncodingRow.convert : EncodingRow.Statement .convert := by
  unfold EncodingRow.Statement; decide

end Sys2Proof.Laws
end

