-- ==== Sys2Proof/Tests/Slice0.lean ====
section
/-! SUPPORT. The model's own tests. Expected results come from the spec's tables and worked examples, named
at each; a second part shows, for every statement with premises, a state and operands that meet them. -/

namespace Sys2Proof.Tests

open Sys2Proof.Machine

/-! ### Well-formedness: the one check, and a term it refuses (R51, R53) -/

theorem test_wellFormed_refuses_reserved_rd : (Instr.receive 1#2).wellFormed = false := by decide

theorem test_wellFormed_takes_legal_rd :
    (Instr.receive 0#2).wellFormed ∧ (Instr.receive 2#2).wellFormed ∧ (Instr.receive 3#2).wellFormed := by
  decide

theorem test_wellFormed_takes_every_byte : ∀ b : Byte, (Instr.transmit b).wellFormed = true := by decide

/-! ### Decoding: words written out from R48 and R49, and the table T5 of spec/95_test_vectors.md -/

/-- `op` = 0001, `z` = 00, `rd` = 00, `imm8` = 00000000. -/
theorem test_decode_select : decode 0b0001000000000000#16 = .op .select := by decide
theorem test_decode_deselect : decode 0b0010000000000000#16 = .op .deselect := by decide
theorem test_decode_transmit : decode 0b0011000010100101#16 = .op (.transmit 0xA5#8) := by decide
theorem test_decode_receive_b2 : decode 0b0100001000000000#16 = .op (.receive 2#2) := by decide
theorem test_decode_receive_b3 : decode 0b0100001100000000#16 = .op (.receive 3#2) := by decide
theorem test_decode_receive_discard : decode 0b0100000000000000#16 = .op (.receive 0#2) := by decide
theorem test_decode_assemble : decode 0b0101000000000000#16 = .op .assemble := by decide
theorem test_decode_convert : decode 0b0110000000000000#16 = .op .convert := by decide

/-- The reserved words of T5. -/
theorem test_decode_reserved :
    [0x0000#16, 0x1001#16, 0x3100#16, 0x3400#16, 0x4100#16, 0x4001#16, 0x4800#16, 0x5200#16, 0x6001#16,
      0x7000#16, 0xF000#16, 0xFFFF#16].all (fun w => decode w == .reservedCommand) = true := by decide

theorem test_rows_disjoint : opcodeRows.Pairwise fun a b => rowsDisjoint a b = true := by decide

theorem test_decodeTableWord : decodeTableWord 16 0x30FF = some (.transmit 0xFF#8) := by decide
theorem test_decodeTableWord_reserved : decodeTableWord 16 0x4100 = none := by decide

/-- R57: the words of `FRAME`. -/
theorem test_frame_words :
    frameWords 0x00#8 = [0x1000#16, 0x3001#16, 0x4000#16, 0x3000#16, 0x4200#16, 0x3000#16, 0x4300#16,
      0x2000#16, 0x5000#16] := by decide

/-- R56: the spec's spelling. -/
theorem test_text_transmit :
    (Instr.transmit 0xA5#8).text
      = some ['T', 'R', 'A', 'N', 'S', 'M', 'I', 'T', ' ', '0', 'x', 'A', '5'] := by decide
theorem test_read_receive_with_comment :
    readLine ['R', 'E', 'C', 'E', 'I', 'V', 'E', ' ', 'B', '3', ' ', ' ', ';', ' ', 'r', 'd']
      = some (.receive 3#2) := by decide
theorem test_read_unknown : readLine ['R', 'E', 'C', 'E', 'I', 'V', 'E', ' ', 'B', '1'] = none := by decide

/-! ### The assembler: spec/95_test_vectors.md section 2 -/

theorem test_assemble_512 : assembleBytes 0x02#8 0x00#8 = 512#10 := by decide
theorem test_assemble_511 : assembleBytes 0x01#8 0xFF#8 = 511#10 := by decide
theorem test_assemble_garbage : assembleBytes 0xFC#8 0x00#8 = 0#10 := by decide
theorem test_assemble_masked : assembleBytes 0xAB#8 0xCD#8 = 973#10 := by decide

/-! ### The operations, one step each -/

/-- The block after reset with one operation at the command port. -/
def at_port (i : Instr) : State := { State.reset with hostOps := [encode i] }

/-- The block with the byte `b` just accepted and `ts` the order of the agents. -/
def in_flight (b : Byte) (ts : List Agent) (ws : List Cmd) : State :=
  State.acceptByte b { State.reset with turnIn := ts, hostOps := ws, misoIn := [true] }

/-- The block with the byte `r` delivered and unread, after `b` was sent. -/
def delivered (b r : Byte) (ws : List Cmd) : State :=
  afterByte b r [] { State.reset with hostOps := ws }

/-- R76: from reset, `SELECT` gives `CS_N` = 0, trace `CsLow`. -/
theorem test_select :
    (nextOf (step (at_port .select))).map (fun t => (t.csN, t.trace)) = some (false, [.csLow]) := by decide

/-- R76, T6: `CS_N` already 0 stays 0, and `CsLow` is still emitted. -/
theorem test_select_again :
    (nextOf (exec .select { State.reset with csN := false, trace := [.csLow] })).map
      (fun t => (t.csN, t.trace)) = some (false, [.csLow, .csLow]) := by decide

/-- R77: with `CS_N` = 0, `DESELECT` gives `CS_N` = 1, trace `CsHigh`. -/
theorem test_deselect :
    (nextOf (exec .deselect { State.reset with csN := false })).map (fun t => (t.csN, t.trace))
      = some (true, [.csHigh]) := by decide

/-- R62: from reset, `TRANSMIT 0x01` gives `TXDR` = `TSR` = `0x01`, `RSR` = 0, `MOSI` = 0, `BUSY` = 1. -/
theorem test_transmit :
    (nextOf (step (at_port (.transmit 0x01#8)))).map (fun t => (t.txdr, t.tsr, t.mosi, t.busy))
      = some (some 0x01#8, some 0x01#8, false, true) := by decide

/-- T4: a second `TRANSMIT` while the first byte is in flight is refused. -/
theorem test_transmit_while_pending :
    refusalOf (exec (.transmit 0x02#8) (in_flight 0x01#8 [] [])) = some .transmitWhilePending := by decide

/-- R63: a delivered `0x02` goes to `B2`, and the response is `0x002`. -/
theorem test_receive_b2 :
    (nextOf (exec (.receive 2#2) (delivered 0x00#8 0x02#8 []))).map (fun t => (t.b2, t.b3, t.responses))
      = some (some 0x02#8, none, [some 0x002#10]) := by decide

/-- T4: `RECEIVE` as the first operation after reset is refused. -/
theorem test_receive_first : refusalOf (step (at_port (.receive 0#2))) = some .receiveWithoutTransmit := by
  decide

/-- R79: `B2` = `0x02`, `B3` = `0x00` give `RESULT` = 512, response `0x200`. -/
theorem test_assemble :
    (nextOf (exec .assemble { State.reset with b2 := some 0x02#8, b3 := some 0x00#8 })).map
      (fun t => (t.result, t.responses)) = some (some 512#10, [some 0x200#10]) := by decide

/-- Section 2 of spec/95_test_vectors.md: `B2` = `0x11`, `B3` = `none` is refused. -/
theorem test_assemble_unwritten :
    refusalOf (exec .assemble { State.reset with b2 := some 0x11#8 }) = some .unwrittenRegister := by decide

/-- R81: acceptance sets `SEQ` to 1. -/
theorem test_convert_accepted :
    (nextOf (step (at_port .convert))).map (fun t => (t.seq, t.csN)) = some (1#4, true) := by decide

/-- T4: `SELECT ; CONVERT` is refused. -/
theorem test_convert_not_idle :
    refusalOf (exec .convert { State.reset with csN := false }) = some .convertNotIdle := by decide

/-- P5: sub-step 4 transmits the channel byte of the build. -/
theorem test_convert_channel_byte :
    (nextOf (step { State.reset with seq := 4#4, csN := false, channelByte := 0x80#8 })).map
      (fun t => (t.txdr, t.mosi, t.seq)) = some (some 0x80#8, true, 5#4) := by decide

/-! ### The edges: T1 and the waveform of R70 -/

/-- T1, cycle 3: `RSR` is `0x00` and a 1 is drawn, `RSR` becomes `0x01`. -/
theorem test_rise :
    (nextOf (engineEdge { in_flight 0xA5#8 [] [] with rsr := some 0x00#8 })).map
      (fun t => (t.sclk, t.rsr, t.trace)) = some (true, some 0x01#8, [.tx 0xA5#8, .rise true true]) := by
  decide

/-- T1, cycle 1: after the fall `TSR` is `0x4A`, `MOSI` 0, `BITCNT` 1. -/
theorem test_fall :
    (nextOf (engineEdge { in_flight 0xA5#8 [] [] with sclk := true })).map
      (fun t => (t.tsr, t.mosi, t.bitcnt)) = some (some 0x4A#8, false, 1#4) := by decide

/-- R70, F8: `RXDR` is `0x02`, `BITCNT` 8, `BUSY` 0, `RX_FRESH` 1. -/
theorem test_last_fall :
    (nextOf (engineEdge
      { in_flight 0x01#8 [] [] with sclk := true, bitcnt := 7#4, tsr := some 0x80#8, rsr := some 0x02#8 })).map
      (fun t => (t.rxdr, t.bitcnt, t.busy, t.rxFresh)) = some (some 0x02#8, 8#4, false, true) := by decide

/-! ### The host's words -/

theorem test_withFetchWord_runs :
    (nextOf (step (State.reset.withFetchWord 16 0x30A5))).map (·.trace) = some [.tx 0xA5#8] := by decide

theorem test_withFetchWord_runs_in_flight :
    (nextOf (step ((in_flight 0xA5#8 [.engine] []).withFetchWord 16 0x1000))).map (·.csN) = some false := by
  decide

theorem test_reserved_word_refused :
    refusalOf (step { State.reset with hostOps := [0x4100#16] }) = some .reservedCommand := by decide

/-- R92: the observer's mark. -/
theorem test_refusal_is_marked : (observe (at_port .assemble)).refused = true := by decide

/-! ### Witnesses: every statement's premises can be met -/

/-- `ReservedWordsRefused`, `StepRunsDecodedOperation`. -/
theorem witness_reserved_at_port :
    State.engineMoves { State.reset with hostOps := [0x0000#16] } = false ∧
      decode 0x0000#16 = .reservedCommand := by decide
theorem witness_operation_at_port :
    (at_port .select).engineMoves = false ∧ (at_port .select).seq = 0#4 ∧
      (at_port .select).command = some (encode .select) ∧ decode (encode .select) = .op .select := by decide
theorem witness_nothing_at_port :
    State.reset.engineMoves = false ∧ State.reset.seq = 0#4 ∧ State.reset.command = none := by decide
theorem witness_turn_of_sequencer :
    (in_flight 0xA5#8 [.sequencer] [encode .select]).engineMoves = false ∧
      (in_flight 0xA5#8 [.sequencer] [encode .select]).busy = true := by decide

/-- `CommandWordLayout`, at a word with an operand at the top of its range. -/
theorem witness_layout :
    decode 0x30FF#16 = .op (.transmit 0xFF#8) ∧ decode 0x4300#16 = .op (.receive 3#2) ∧
      decode 0x6000#16 = .op .convert := by decide

/-- `TextReadsBack`. -/
theorem witness_text : (Instr.receive 0#2).text = some wordReceive := by decide

/-- `PlacedOperationRunsNext`. -/
theorem witness_placed : decodeTableWord 16 0x6000 = some .convert := by decide

/-- The invariants hold with a byte in flight (with ENG's turn, or SEQ's), and with one delivered. -/
theorem witness_inv_in_flight (ws : List Cmd) : BlockInv (in_flight 0xA5#8 [.sequencer] ws) :=
  ⟨by constructor <;> simp [in_flight, State.reset, topBit],
    by constructor <;> simp [in_flight, State.reset],
    by constructor <;> simp [in_flight, State.reset]⟩
theorem witness_inv_engine_turn : BlockInv (in_flight 0xA5#8 [.engine] []) :=
  ⟨by constructor <;> decide, by constructor <;> decide, by constructor <;> decide⟩
theorem witness_inv_delivered (ws : List Cmd) : BlockInv (delivered 0xA5#8 0x3C#8 ws) :=
  ⟨by constructor <;> simp [delivered, afterByte, State.reset],
    by constructor <;> simp [delivered, afterByte, State.reset],
    by constructor <;> simp [delivered, afterByte, State.reset]⟩
theorem witness_inv_reset (ws : List Cmd) : BlockInv { State.reset with hostOps := ws } :=
  ⟨by constructor <;> simp [State.reset], by constructor <;> simp [State.reset],
    by constructor <;> simp [State.reset]⟩

/-- `RefusalsAreTheClosedList`: each of the five reasons is met in a state of the invariant. -/
theorem witness_each_refusal :
    refusalOf (step { State.reset with hostOps := [0xFFFF#16] }) = some .reservedCommand ∧
    refusalOf (step (in_flight 0xA5#8 [.sequencer] [encode (.transmit 0x02#8)]))
      = some .transmitWhilePending ∧
    refusalOf (step { State.reset with hostOps := [encode (.receive 3#2)] })
      = some .receiveWithoutTransmit ∧
    refusalOf (step { State.reset with hostOps := [encode .assemble] }) = some .unwrittenRegister ∧
    refusalOf (step (delivered 0xA5#8 0x3C#8 [encode .convert])) = some .convertNotIdle := by decide

/-- A `CONVERT` in progress, at its sub-step 2. -/
def converting : State :=
  { State.reset with seq := 2#4, csN := false, hostOps := [encode .convert] }

/-- `ConvertIsNeverRefusedMidway`, `ConvertIsAtomic`, `StepKeepsConvertPhase`, `SeqMovesInOrder`. -/
theorem witness_inv_converting : BlockInv converting ∧ converting.seq ≠ 0#4 :=
  ⟨⟨by constructor <;> decide, by constructor <;> decide, by constructor <;> decide⟩, by decide⟩
theorem witness_converting_steps : (nextOf (step converting)).isSome = true := by decide

/-- The middle of a byte after `k` edges, the choice falling on ENG. -/
def mid (k : Nat) : State := midByte 0xA5#8 0x3C#8 [] k { State.reset with turnIn := [.engine] }

/-- `EngineStepsWhileBusy`, `RisingEdgeSamples`, `EveryEdgeBringsCompletionNearer`, the step invariants and the
rules of the whole block: a step that falls on ENG. -/
theorem witness_engine_turn :
    (in_flight 0xA5#8 [.engine] []).engineMoves = true ∧
      (in_flight 0xA5#8 [.engine] []).busy = true ∧ (in_flight 0xA5#8 [.engine] []).sclk = false ∧
      (in_flight 0xA5#8 [.engine] []).rsr = some 0x00#8 ∧
      (nextOf (step (in_flight 0xA5#8 [.engine] []))).isSome = true := by decide
/-- `EngineStepsWhileBusy`: ENG's turn in a state of the invariants at `SCLK` = 0, first edge, and at `SCLK` = 1,
in the first and in the last cycle of the byte. -/
theorem witness_wireInv_engine_turn :
    WireInv (mid 0) ∧ WireInv (mid 1) ∧ WireInv (mid 15) ∧
      ((mid 0).sclk, (mid 1).sclk, (mid 15).sclk) = (false, true, true) ∧
      [mid 0, mid 1, mid 15].all (fun s => s.busy && s.turn == .engine) = true :=
  ⟨by constructor <;> decide, by constructor <;> decide, by constructor <;> decide, by decide, by decide⟩
theorem witness_engine_turn_falling :
    (mid 1).engineMoves = true ∧ (mid 1).sclk = true ∧ (nextOf (step (mid 1))).isSome = true := by decide
/-- `EngineStepsWhileBusy`, its second part. -/
theorem witness_quiet_step :
    (at_port (.transmit 0x01#8)).busy = false ∧ (nextOf (step (at_port (.transmit 0x01#8)))).isSome = true := by
  decide

/-- `FallingEdgeDrives`, at its last cycle, and `LastEdgeCompletesByte`. -/
theorem witness_falling :
    (mid 13).busy = true ∧ (mid 13).sclk = true ∧ (mid 13).bitcnt < 7#4 ∧
      (mid 13).tsr = some 0x40#8 := by decide
theorem witness_last :
    (mid 15).busy = true ∧ (mid 15).sclk = true ∧ (mid 15).bitcnt = 7#4 ∧
      (mid 15).rsr = some 0x3C#8 := by decide

/-- `WiresMoveOnlyWhereAllowed` and `FlagsMoveOnlyWhereAllowed`: each wire and flag does move. -/
theorem witness_wires_move :
    (nextOf (step (at_port .select))).map (·.csN) = some false ∧
    (nextOf (step (mid 0))).map (·.sclk) = some true ∧
    (nextOf (step (at_port (.transmit 0xFF#8)))).map (·.mosi) = some true ∧
    (nextOf (step (mid 1))).map (·.mosi) = some false ∧ (mid 1).mosi = true := by decide
theorem witness_flags_move :
    (nextOf (step (at_port (.transmit 0xFF#8)))).map (·.busy) = some true ∧
    (nextOf (step (mid 15))).map (fun t => (t.busy, t.rxFresh)) = some (false, true) ∧
    (nextOf (step (delivered 0xA5#8 0x3C#8 [encode (.receive 2#2)]))).map (·.rxFresh) = some false := by
  decide
/-- `DataRegistersWrittenOnlyWhereAllowed`: each register is written. -/
theorem witness_registers_written :
    (nextOf (step (delivered 0xA5#8 0x3C#8 [encode (.receive 2#2)]))).map (·.b2) = some (some 0x3C#8) ∧
    (nextOf (step (delivered 0xA5#8 0x3C#8 [encode (.receive 3#2)]))).map (·.b3) = some (some 0x3C#8) ∧
    (nextOf (step { at_port .assemble with b2 := some 0x03#8, b3 := some 0xFF#8 })).map (·.result)
      = some (some 1023#10) ∧
    (nextOf (step (at_port (.transmit 0xFF#8)))).map (·.txdr) = some (some 0xFF#8) ∧
    (nextOf (step (mid 15))).map (·.rxdr) = some (some 0x3C#8) := by decide

/-- `SelectAndDeselectFrame`, `TransmitFrame`, `ConvertFrame`, `ConvertAcceptedWhenIdle`,
`TransmitLoadsShiftPath`: the operations run from reset, and `CONVERT` and `TRANSMIT` can find the block
busy. -/
theorem witness_run_from_reset :
    (nextOf (exec .select State.reset)).isSome = true ∧ (nextOf (exec .deselect State.reset)).isSome = true ∧
    (nextOf (exec (.transmit 0x00#8) State.reset)).isSome = true ∧
    (nextOf (exec .convert State.reset)).isSome = true := by decide
theorem witness_convertStep_runs : (nextOf (convertStep converting)).isSome = true := by decide
theorem witness_pending :
    (in_flight 0x01#8 [] []).busy = true ∧ (delivered 0x01#8 0x00#8 []).rxFresh = true := by decide

/-- `ReceiveReturnsByte`, `ReceiveFrame`, `ReceiveOnceAssembleAgain`: the three cases of `RECEIVE`. -/
theorem witness_receive :
    (delivered 0xA5#8 0x3C#8 []).busy = false ∧ (delivered 0xA5#8 0x3C#8 []).rxFresh = true ∧
    (delivered 0xA5#8 0x3C#8 []).rxdr = some 0x3C#8 ∧
    (nextOf (exec (.receive 0#2) (delivered 0xA5#8 0x3C#8 []))).isSome = true ∧
    State.reset.busy = false ∧ State.reset.rxFresh = false ∧ (in_flight 0x01#8 [] []).busy = true := by
  decide
/-- `AssembleJoinsRegisters`, `AssembleFrame`, `ReceiveOnceAssembleAgain`. -/
theorem witness_assemble :
    (nextOf (exec .assemble { State.reset with b2 := some 0x03#8, b3 := some 0xFF#8 })).isSome = true ∧
    State.reset.b2 = none := by decide

/-- `ConvertSubSteps`: a sub-step whose operation runs, sub-step 9, and a hold. -/
theorem witness_subStep :
    converting.busy = false ∧ (nextOf (exec (.transmit 0x01#8) converting)).isSome = true := by decide
theorem witness_each_subStep :
    (nextOf (exec .select { State.reset with seq := 1#4 })).isSome = true ∧
    (nextOf (exec (.receive 0#2) { delivered 0x01#8 0x3C#8 [] with seq := 3#4 })).isSome = true ∧
    (nextOf (exec (.transmit 0x00#8) { State.reset with seq := 4#4 })).isSome = true ∧
    (nextOf (exec (.receive 2#2) { delivered 0x00#8 0x3C#8 [] with seq := 5#4 })).isSome = true ∧
    (nextOf (exec (.transmit 0x00#8) { State.reset with seq := 6#4 })).isSome = true ∧
    (nextOf (exec (.receive 3#2) { delivered 0x00#8 0x3C#8 [] with seq := 7#4 })).isSome = true ∧
    (nextOf (exec .deselect { State.reset with seq := 8#4 })).isSome = true := by decide
theorem witness_subStep_nine :
    (nextOf (exec .assemble
      { State.reset with seq := 9#4, b2 := some 0x03#8, b3 := some 0xFF#8 })).isSome = true := by decide
theorem witness_subStep_hold :
    State.engineMoves { in_flight 0x01#8 [.sequencer] [encode .convert] with seq := 3#4 } = false ∧
      (in_flight 0x01#8 [.sequencer] []).busy = true := by decide

/-- An order of the agents in which SEQ spends its turns in the hold. -/
def held_order : List Agent := [.sequencer, .sequencer] ++ List.replicate 16 .engine

/-- `ByteLevelLaw`, `ConvertRunsWholeFrame`, `FrameRunsLikeConvert`: orders that complete a byte. -/
theorem witness_byteTurns : byteTurns held_order = true ∧ byteTurns (List.replicate 16 .engine) = true := by
  decide
/-- The idle block with the operations and answers of the source's first example (P1). -/
def example_start : State :=
  { State.reset with
    hostOps := [encode .convert]
    turnIn := held_order ++ held_order ++ List.replicate 16 .engine ++ []
    misoIn := bitsOnWire 0x00#8 ++ bitsOnWire 0x02#8 ++ bitsOnWire 0x00#8 ++ [] }
theorem witness_frame_start :
    example_start.csN = true ∧ example_start.sclk = false ∧ example_start.busy = false ∧
      example_start.rxFresh = false ∧ example_start.seq = 0#4 ∧
      example_start.hostOps = encode .convert :: [] := by decide
theorem witness_byte_start :
    State.hostOps { State.reset with hostOps := [encode (.transmit 0xA5#8), encode (.receive 2#2)] }
      = encode (.transmit 0xA5#8) :: encode (.receive 2#2) :: [] ∧ (2#2 : BitVec 2) ≠ 1#2 := by decide

/-- `ReceiveReturnsOnceEngineHasTurns`: two edges left and two turns for ENG among the next three. -/
def near_end : State :=
  midByte 0xA5#8 0x3C#8 [] 14
    { State.reset with turnIn := [.engine, .sequencer, .engine], hostOps := [encode (.receive 2#2)] }
theorem witness_near_end_inv : BlockInv near_end :=
  ⟨by constructor <;> decide, by constructor <;> decide, by constructor <;> decide⟩
theorem witness_near_end :
    near_end.seq = 0#4 ∧ near_end.command = some (encode (.receive 2#2)) ∧ near_end.bytePending = true ∧
      near_end.edgesLeft = 2 ∧ near_end.edgesLeft ≤ near_end.engineTurns 3 := by decide

/-- `HoldIsKeptWithoutEngine`: three turns of SEQ, in the host's `RECEIVE` and in the sub-steps 3, 5 and 7 of
`CONVERT`. -/
theorem witness_hold :
    (∀ i, i < 3 → (in_flight 0x01#8 [.sequencer, .sequencer, .sequencer] []).turnAt i = .sequencer) ∧
    State.command (in_flight 0x01#8 [] [encode (.receive 0#2)]) = some (encode (.receive 0#2)) := by decide

theorem witness_hold_in_convert :
    [3#4, 5#4, 7#4].all (fun k =>
      (nextOf (step { in_flight 0x01#8 [.sequencer] [encode .convert] with seq := k })).isSome) = true := by
  decide

/-- `EngineCommutesWithSelectAndAssemble`. -/
theorem witness_commute :
    (nextOf (exec .select (mid 3))).isSome = true ∧ (nextOf (exec .deselect (mid 3))).isSome = true ∧
    (nextOf (exec .assemble { mid 3 with b2 := some 0x00#8, b3 := some 0x00#8 })).isSome = true ∧
    (nextOf (engineEdge (mid 3))).isSome = true := by decide

/-- `StepKeepsEdgeCount`: the count holds in the middle of a byte. -/
theorem witness_edge_count : EdgeInv (in_flight 0xA5#8 [.engine] []) := by constructor <;> decide

/-- `MisoReadOnlyAtRisingEdges`, `RefusalMarkIsSticky`, `EndedRunStaysEnded`. -/
theorem witness_refused : refusalOf (step (at_port .assemble)) = some .unwrittenRegister := by decide
theorem witness_marked : (State.reset.markRefused).refused = true := by decide
theorem witness_ended : State.reset.runEnded = true := by decide
theorem witness_not_ended : (in_flight 0x01#8 [] []).busy = true ∧ converting.seq ≠ 0#4 := by decide

end Sys2Proof.Tests
end

section
/-! PROOFS of the statements of spec/00_scope.md: which operation a step runs, and what every step keeps of the
parameter, of the mark `REFUSED` and of the record (R6, R10, R29, R42). -/

namespace Sys2Proof.Machine

variable {s t : State}

/-! ### The operation a step runs -/

/-- The fourth branch of a step, beside the three of Laws/Step.lean. -/
theorem step_of_operation {w : Cmd} {i : Instr} (h : s.engineMoves = false) (hq : s.seq = 0#4)
    (hc : s.command = some w) (hw : decode w = .op i) : step s = exec i s.passTurn := by
  simp [step, h, hq, hc, hw]

theorem decodeTableWord_eq_some {nbits w : Nat} {i : Instr} :
    decodeTableWord nbits w = some i ↔ decode (tableWord nbits w) = .op i := by
  unfold decodeTableWord
  cases decode (tableWord nbits w) <;> simp

/-! ### The placed operation (log entry 9) -/

section Placed

variable (s) (nbits w : Nat)

@[simp] theorem State.withFetchWord_seq : (s.withFetchWord nbits w).seq = 0#4 := rfl
@[simp] theorem State.withFetchWord_hostOps :
    (s.withFetchWord nbits w).hostOps = tableWord nbits w :: s.hostOps := rfl
@[simp] theorem State.withFetchWord_command :
    (s.withFetchWord nbits w).command = some (tableWord nbits w) := rfl

/-- While a byte is in flight the choice placed first is SEQ; otherwise ENG has no step. -/
@[simp] theorem State.withFetchWord_engineMoves : (s.withFetchWord nbits w).engineMoves = false := by
  cases hb : s.busy
  · exact engineMoves_of_quiet hb
  · simp [State.withFetchWord, State.engineMoves, State.turn, hb]

/-- The step uses up exactly the choice that was placed. -/
theorem State.withFetchWord_passTurn_turnIn :
    (s.withFetchWord nbits w).passTurn.turnIn = s.turnIn := by
  cases hb : s.busy <;> simp [State.withFetchWord, hb]

end Placed

/-! ### What a step adds to the record -/

/-- From `s` to `t` the parameter and the mark stay, the record grows by the events `es` and the responses
`vs`, at most one each, and an operation leaves the command port with each response. -/
structure RecordGrows (s t : State) (es : List Event) (vs : List (Option Sample)) : Prop where
  channelByte : t.channelByte = s.channelByte
  refused : t.refused = s.refused
  trace : t.trace = s.trace ++ es
  atMostOneEvent : es.length ≤ 1
  responses : t.responses = s.responses ++ vs
  hostOps : t.hostOps = s.hostOps.drop vs.length
  atMostOneResponse : vs.length ≤ 1

theorem RecordGrows.refl (s : State) : RecordGrows s s [] [] := by constructor <;> simp

/-- The choice of agent is no part of the record. -/
theorem RecordGrows.of_passTurn {es : List Event} {vs : List (Option Sample)}
    (h : RecordGrows s.passTurn t es vs) : RecordGrows s t es vs where
  channelByte := by simpa using h.channelByte
  refused := by simpa using h.refused
  trace := by simpa using h.trace
  atMostOneEvent := h.atMostOneEvent
  responses := by simpa using h.responses
  hostOps := by simpa using h.hostOps
  atMostOneResponse := h.atMostOneResponse

theorem EdgeTo.recordGrows (h : EdgeTo s t) : ∃ es, RecordGrows s t es [] := by
  cases h with
  | rise => exact ⟨[.rise s.mosi s.misoLevel], by constructor <;> simp⟩
  | fall => exact ⟨[.fall], by constructor <;> simp⟩
  | last => exact ⟨[.fall], by constructor <;> simp⟩
  | still => exact ⟨[], .refl s⟩

theorem SubStepTo.recordGrows (h : SubStepTo s t) : ∃ es vs, RecordGrows s t es vs := by
  cases h with
  | still => exact ⟨[], [], .refl s⟩
  | held => exact ⟨[], [], .refl s⟩
  | select => exact ⟨[.csLow], [], by constructor <;> simp⟩
  | transmit b => exact ⟨[.tx b], [], by constructor <;> simp⟩
  | receive rd => exact ⟨[.rx s.rxdrBits], [], by constructor <;> simp⟩
  | deselect => exact ⟨[.csHigh], [], by constructor <;> simp⟩
  | assemble x y =>
    exact ⟨[.result (assembleBytes x y)], [some (assembleBytes x y)], by constructor <;> simp⟩

theorem OperationTo.recordGrows {i : Instr} (h : OperationTo s i t) : ∃ es vs, RecordGrows s t es vs := by
  cases h with
  | held rd => exact ⟨[], [], .refl s⟩
  | select => exact ⟨[.csLow], [none], by constructor <;> simp⟩
  | deselect => exact ⟨[.csHigh], [none], by constructor <;> simp⟩
  | transmit b => exact ⟨[.tx b], [none], by constructor <;> simp⟩
  | receive rd => exact ⟨[.rx s.rxdrBits], [some (zext10 s.rxdrBits)], by constructor <;> simp⟩
  | assemble x y =>
    exact ⟨[.result (assembleBytes x y)], [some (assembleBytes x y)], by constructor <;> simp⟩
  | accept => exact ⟨[], [], by constructor <;> simp⟩

theorem StepTo.recordGrows (h : StepTo s t) : ∃ es vs, RecordGrows s t es vs := by
  cases h with
  | engine _ he =>
    obtain ⟨es, hg⟩ := he.recordGrows
    exact ⟨es, [], hg.of_passTurn⟩
  | subStep _ _ hs =>
    obtain ⟨es, vs, hg⟩ := hs.recordGrows
    exact ⟨es, vs, hg.of_passTurn⟩
  | idlePort => exact ⟨[], [], (RecordGrows.refl _).of_passTurn⟩
  | operation w i _ _ _ _ ho =>
    obtain ⟨es, vs, hg⟩ := ho.recordGrows
    exact ⟨es, vs, hg.of_passTurn⟩

end Sys2Proof.Machine

namespace Sys2Proof

open Sys2Proof.Machine

/-- Settles O51: the one event and the one response of each way a step can go. -/
theorem stepKeepsParameterMarkAndHistory : Obligations.StepKeepsParameterMarkAndHistory := by
  intro s t h
  obtain ⟨es, vs, hg⟩ := (step_next h).recordGrows
  exact ⟨hg.channelByte, hg.refused, ⟨es, hg.trace, hg.atMostOneEvent⟩,
    ⟨vs, hg.responses, hg.hostOps, hg.atMostOneResponse⟩⟩

/-- Settles O8, one branch of the step after the other. -/
theorem stepRunsDecodedOperation : Obligations.StepRunsDecodedOperation :=
  ⟨fun _ => step_of_engine,
    fun _ _ _ => step_of_operation,
    fun _ => step_of_idlePort,
    fun _ h => ⟨passTurn_of_quiet h, engineMoves_of_quiet h⟩,
    fun _ => passTurn_of_busy⟩

/-- Settles O9: the placed state is one in which SEQ moves, no `CONVERT` is in progress and the placed word
is at the command port. -/
theorem placedOperationRunsNext : Obligations.PlacedOperationRunsNext := by
  intro s nbits w i h
  have hstep : step (s.withFetchWord nbits w) = exec i (s.withFetchWord nbits w).passTurn :=
    step_of_operation (s.withFetchWord_engineMoves nbits w) (s.withFetchWord_seq nbits w)
      (s.withFetchWord_command nbits w) (decodeTableWord_eq_some.1 h)
  exact ⟨hstep, s.withFetchWord_passTurn_turnIn nbits w, by simp⟩

end Sys2Proof
end

section
/-! PROOFS of the statements of spec/10_state.md: what a step does to the wires, the flags and the registers
(R14 to R27), how `SEQ` moves (R28), what the block never reads (R29, R42, R68), and the invariants of the shift
path and of `CONVERT`. -/

namespace Sys2Proof.Machine

variable {s t u c : State}

/-! ### What a step does to the wires, the flags and the registers -/

/-- `u` with `SEQ`, the command port, the responses and the order of the agents of `c`. -/
@[simps] def State.withControlOf (u c : State) : State :=
  { u with
    seq := c.seq
    hostOps := c.hostOps
    responses := c.responses
    turnIn := c.turnIn
    turnCount := c.turnCount }

theorem passTurn_eq_withControlOf (s : State) : s.passTurn = s.withControlOf s.passTurn := by
  unfold State.passTurn; split <;> rfl

theorem returnByte_withControlOf (rd : BitVec 2) (v : Byte) (s c : State) :
    (s.withControlOf c).returnByte rd v = (s.returnByte rd v).withControlOf c := by
  unfold State.returnByte State.latch
  split
  · rfl
  · split <;> rfl

/-- What a step can do, but for `SEQ`, the command port, the responses and the order of the agents: an operation
and a sub-step of `CONVERT` with the same body are one case. -/
inductive Effect (s : State) : State → Prop
  | none : Effect s s
  | rise : s.engineMoves = true → s.busy = true → s.sclk = false → Effect s (engineRise s)
  | fall : s.engineMoves = true → s.busy = true → s.sclk = true → s.bitcnt < 7#4 →
      Effect s (engineFall s)
  | last : s.engineMoves = true → s.busy = true → s.sclk = true → s.bitcnt = 7#4 →
      Effect s (engineLast s)
  | select : Effect s s.selectLow
  | deselect : Effect s s.selectHigh
  | transmit (b : Byte) : s.bytePending = false → Effect s (s.acceptByte b)
  | receive (rd : BitVec 2) : s.busy = false → s.rxFresh = true → Effect s (s.returnByte rd s.rxdrBits)
  | assemble (x y : Byte) : s.b2 = some x → s.b3 = some y →
      Effect s (State.emit (.result (assembleBytes x y)) { s with result := some (assembleBytes x y) })

theorem EdgeTo.effect (hm : s.engineMoves = true) (h : EdgeTo (s.withControlOf c) t) :
    ∃ u, Effect s u ∧ t = u.withControlOf t := by
  cases h with
  | rise hb hs => exact ⟨_, .rise hm hb hs, rfl⟩
  | fall hb hs hn => exact ⟨_, .fall hm hb hs hn, rfl⟩
  | last hb hs hn => exact ⟨_, .last hm hb hs hn, rfl⟩
  | still => exact ⟨_, .none, rfl⟩

theorem SubStepTo.effect (h : SubStepTo (s.withControlOf c) t) :
    ∃ u, Effect s u ∧ t = u.withControlOf t := by
  cases h with
  | still => exact ⟨_, .none, rfl⟩
  | held => exact ⟨_, .none, rfl⟩
  | select => exact ⟨_, .select, rfl⟩
  | transmit b _ hp => exact ⟨_, .transmit b hp, rfl⟩
  | receive rd _ hb hf => exact ⟨_, .receive rd hb hf, by rw [returnByte_withControlOf]; rfl⟩
  | deselect => exact ⟨_, .deselect, rfl⟩
  | assemble x y _ hx hy => exact ⟨_, .assemble x y hx hy, rfl⟩

theorem OperationTo.effect {i : Instr} (h : OperationTo (s.withControlOf c) i t) :
    ∃ u, Effect s u ∧ t = u.withControlOf t := by
  cases h with
  | held => exact ⟨_, .none, rfl⟩
  | select => exact ⟨_, .select, rfl⟩
  | deselect => exact ⟨_, .deselect, rfl⟩
  | transmit b hp => exact ⟨_, .transmit b hp, rfl⟩
  | receive rd _ hb hf => exact ⟨_, .receive rd hb hf, by rw [returnByte_withControlOf]; rfl⟩
  | assemble x y hx hy => exact ⟨_, .assemble x y hx hy, rfl⟩
  | accept => exact ⟨_, .none, rfl⟩

theorem step_effect (h : step s = .next t) : ∃ u c, Effect s u ∧ t = u.withControlOf c := by
  have hu : ∃ u, Effect s u ∧ t = u.withControlOf t := by
    have h' := step_next h
    cases h' with
    | engine hm he => exact (passTurn_eq_withControlOf s ▸ he).effect hm
    | subStep _ _ hs => exact (passTurn_eq_withControlOf s ▸ hs).effect
    | idlePort => exact ⟨s, .none, passTurn_eq_withControlOf s⟩
    | operation w i _ _ _ _ ho => exact (passTurn_eq_withControlOf s ▸ ho).effect
  obtain ⟨u, he, ht⟩ := hu
  exact ⟨u, t, he, ht⟩

/-! ### The shift path -/

/-- The invariant speaks of the shift path, `TXDR`, `RXDR`, `MOSI` and the flags alone. -/
theorem ShiftInv.congr (h : ShiftInv s) (hbusy : t.busy = s.busy)
    (hfresh : t.rxFresh = true → s.rxFresh = true) (hmosi : t.mosi = s.mosi) (htxdr : t.txdr = s.txdr)
    (hrxdr : t.rxdr = s.rxdr) (htsr : t.tsr = s.tsr) (hrsr : t.rsr = s.rsr)
    (hbitcnt : t.bitcnt = s.bitcnt) : ShiftInv t where
  tsrInFlight := by simpa [hbusy, htxdr, htsr, hbitcnt] using h.tsrInFlight
  rsrInFlight := by simpa [hbusy, hrsr] using h.rsrInFlight
  tsrQuiet := by simpa [hbusy, htsr, htxdr] using h.tsrQuiet
  mosiQuiet := by simpa [hbusy, hmosi, htxdr] using h.mosiQuiet
  rxdrQuiet := by simpa [hbusy, hrxdr, hrsr] using h.rxdrQuiet
  rsrQuiet := by simpa [hbusy, hrsr, htxdr] using h.rsrQuiet
  freshHolds hf := by simpa [hrxdr] using h.freshHolds (hfresh hf)

/-- In flight `TSR` is the byte of `TXDR`, shifted out so far. -/
theorem ShiftInv.inFlight (h : ShiftInv s) (hb : s.busy = true) :
    ∃ b, s.txdr = some b ∧ s.tsr = some (b <<< s.bitcnt.toNat) := by
  obtain ⟨hx, ht⟩ := h.tsrInFlight hb
  obtain ⟨b, hx⟩ := Option.isSome_iff_exists.1 hx
  exact ⟨b, hx, by simpa [hx] using ht⟩

/-- A rising edge moves the receive half alone. -/
theorem ShiftInv.engineRise (h : ShiftInv s) (hb : s.busy = true) : ShiftInv (engineRise s) where
  tsrInFlight := h.tsrInFlight
  rsrInFlight _ := rfl
  tsrQuiet := by simp [hb]
  mosiQuiet := by simp [hb]
  rxdrQuiet := by simp [hb]
  rsrQuiet := by simp [hb]
  freshHolds := h.freshHolds

theorem ShiftInv.engineFall (h : ShiftInv s) (hb : s.busy = true) (hn : s.bitcnt < 7#4) :
    ShiftInv (engineFall s) where
  tsrInFlight _ := by
    obtain ⟨b, hx, ht⟩ := h.inFlight hb
    have hcount : (s.bitcnt + 1#4).toNat = s.bitcnt.toNat + 1 := by bv_omega
    simp [hx, ht, hcount, shiftOut_eq, BitVec.shiftLeft_add]
  rsrInFlight := h.rsrInFlight
  tsrQuiet := by simp [hb]
  mosiQuiet := by simp [hb]
  rxdrQuiet := by simp [hb]
  rsrQuiet := by simp [hb]
  freshHolds := h.freshHolds

/-- With the last edge bit 0 of the byte sent, the top bit of `TSR`, stays on `MOSI`. -/
theorem ShiftInv.engineLast (hw : WireInv s) (h : ShiftInv s) (hb : s.busy = true) (hn : s.bitcnt = 7#4) :
    ShiftInv (engineLast s) := by
  obtain ⟨b, hx, ht⟩ := h.inFlight hb
  have htsr : s.tsr = some (b <<< 7) := by simpa [hn] using ht
  have hmosi : s.mosi = b[0] := by
    have htop := hw.mosiIsTopBit hb
    simpa [htsr, topBit_shiftLeft, eq_comm] using htop
  exact {
    tsrInFlight := by simp
    rsrInFlight := by simp
    tsrQuiet := by simp [htsr, hx]
    mosiQuiet := by simp [hmosi, hx]
    rxdrQuiet := by simp
    rsrQuiet := by simp [h.rsrInFlight hb, hx]
    freshHolds := by simp [h.rsrInFlight hb] }

theorem ShiftInv.acceptByte (b : Byte) (hp : s.bytePending = false) : ShiftInv (s.acceptByte b) where
  tsrInFlight := by simp
  rsrInFlight := by simp
  tsrQuiet := by simp
  mosiQuiet := by simp
  rxdrQuiet := by simp
  rsrQuiet := by simp
  freshHolds := by simp [(bytePending_eq_false.1 hp).2]

theorem Effect.shiftInv (hw : WireInv s) (h : ShiftInv s) (he : Effect s u) : ShiftInv u := by
  cases he with
  | none => exact h
  | rise _ hb => exact h.engineRise hb
  | fall _ hb _ hn => exact h.engineFall hb hn
  | last _ hb _ hn => exact h.engineLast hw hb hn
  | select => exact h.congr rfl id rfl rfl rfl rfl rfl rfl
  | deselect => exact h.congr rfl id rfl rfl rfl rfl rfl rfl
  | transmit b hp => exact .acceptByte b hp
  | receive rd => apply h.congr <;> simp
  | assemble x y => exact h.congr rfl id rfl rfl rfl rfl rfl rfl

/-! ### Where `SEQ` stands -/

/-- The invariant speaks of `SEQ`, the command port, the select line, whether a byte is pending, `B2` and `B3`
alone. -/
theorem SeqInv.congr (h : SeqInv s) (hseq : t.seq = s.seq) (hport : t.command = s.command)
    (hcsN : t.csN = s.csN) (hpend : t.bytePending = s.bytePending) (hb2 : t.b2 = s.b2) (hb3 : t.b3 = s.b3) :
    SeqInv t where
  seqRange := by simpa [hseq] using h.seqRange
  port := by simpa [hseq, hport] using h.port
  selected := by simpa [hseq, hcsN] using h.selected
  deselected := by simpa [hseq, hcsN] using h.deselected
  free := by simpa [hseq, hpend] using h.free
  pending := by simpa [hseq, hpend] using h.pending
  b2Written := by simpa [hseq, hb2] using h.b2Written
  b3Written := by simpa [hseq, hb3] using h.b3Written

/-- With no `CONVERT` in progress nothing is asked. -/
theorem SeqInv.of_seq_zero (h : s.seq = 0#4) : SeqInv s := by constructor <;> simp [h]

theorem SeqInv.passTurn (h : SeqInv s) : SeqInv s.passTurn := by
  apply h.congr <;> simp [State.command, State.bytePending]

/-- An edge of ENG leaves a byte pending that was: in flight before it, in flight or unread after it. -/
theorem EdgeTo.seqInv (h : SeqInv s) (he : EdgeTo s t) : SeqInv t := by
  cases he with
  | rise => exact h.congr rfl rfl rfl rfl rfl rfl
  | fall => exact h.congr rfl rfl rfl rfl rfl rfl
  | last hb => exact h.congr rfl rfl rfl (by simp [State.bytePending, hb]) rfl rfl
  | still => exact h

/-- A sub-step that sends or receives a byte, 2 to 7, turns round whether one is pending. -/
theorem SeqInv.byteSubStep (h : SeqInv s) (hlow : 2#4 ≤ s.seq) (hhigh : s.seq ≤ 7#4)
    (hseq : t.seq = s.seq + 1#4) (hport : t.command = s.command) (hcsN : t.csN = s.csN)
    (hpend : t.bytePending = !s.bytePending) (hb2 : s.seq = 5#4 ∨ s.b2.isSome → t.b2.isSome)
    (hb3 : s.seq = 7#4 ∨ s.b3.isSome → t.b3.isSome) : SeqInv t where
  seqRange := by bv_omega
  port _ := hport.trans (h.port (by bv_omega))
  selected _ _ := hcsN.trans (h.selected hlow (by bv_omega))
  deselected hk := absurd hk (by bv_omega)
  free hk := by simp [hpend, h.pending (by bv_omega)]
  pending hk := by simp [hpend, h.free (by bv_omega)]
  b2Written hk := hb2 (by
    have : s.seq = 5#4 ∨ 6#4 ≤ s.seq := by bv_omega
    exact this.imp_right h.b2Written)
  b3Written hk := hb3 (.inl (by bv_omega))

theorem SubStepTo.seqInv (h : SeqInv s) (hs : SubStepTo s t) : SeqInv t := by
  cases hs with
  | still => exact h
  | held => exact h
  | select hq =>
    exact {
      seqRange := by simp
      port _ := h.port (by simp [hq])
      selected _ _ := rfl
      deselected := by simp
      free _ := h.free (.inl hq)
      pending := by simp
      b2Written := by simp
      b3Written := by simp }
  | transmit b hk hp =>
    have hseq : s.seq = 2#4 ∨ s.seq = 4#4 ∨ s.seq = 6#4 := hk.imp And.left (Or.imp And.left And.left)
    exact h.byteSubStep (by bv_omega) (by bv_omega) rfl rfl rfl (by rw [hp]; rfl)
      (fun hb2 => hb2.resolve_left (by bv_omega)) (fun hb3 => hb3.resolve_left (by bv_omega))
  | receive rd hk hb hf =>
    have hseq : s.seq = 3#4 ∨ s.seq = 5#4 ∨ s.seq = 7#4 := hk.imp And.left (Or.imp And.left And.left)
    refine h.byteSubStep (by bv_omega) (by bv_omega) rfl ?_ ?_ ?_ ?_ ?_
    · simp [State.command]
    · simp
    · simp [State.bytePending, hb, hf]
    · rcases hk with ⟨hq, rfl⟩ | ⟨hq, rfl⟩ | ⟨hq, rfl⟩ <;> simp [hq]
    · rcases hk with ⟨hq, rfl⟩ | ⟨hq, rfl⟩ | ⟨hq, rfl⟩ <;> simp [hq]
  | deselect hq =>
    exact {
      seqRange := by simp
      port _ := h.port (by simp [hq])
      selected := by simp
      deselected _ := rfl
      free _ := h.free (by simp [hq])
      pending := by simp
      b2Written _ := h.b2Written (by simp [hq])
      b3Written _ := h.b3Written (by simp [hq]) }
  | assemble x y => exact .of_seq_zero rfl

/-- The one operation that leaves `SEQ` other than 0 is `CONVERT`, accepted in an idle block. -/
theorem OperationTo.seq_cases {i : Instr} (h : OperationTo s i t) :
    t.seq = s.seq ∨ (i = .convert ∧ s.idle = true ∧ t = { s with seq := 1#4 }) := by
  cases h with
  | held => exact .inl rfl
  | select => exact .inl rfl
  | deselect => exact .inl rfl
  | transmit => exact .inl rfl
  | receive => exact .inl (by simp)
  | assemble => exact .inl rfl
  | accept hi => exact .inr ⟨rfl, hi, rfl⟩

theorem eq_encode_of_decode_convert {w : Cmd} (h : decode w = .op .convert) : w = encode .convert := by
  have hrow : selectsRow w rowConvert = true := by
    by_contra hrow
    unfold decode at h
    split_ifs at h <;> cases h
  have hmask : w &&& 0xFFFF#16 = 0x6000#16 := by simpa [selectsRow, rowConvert] using hrow
  calc w = w &&& BitVec.allOnes 16 := BitVec.and_allOnes.symm
    _ = 0x6000#16 := hmask

theorem idle_iff : s.idle = true ↔ s.csN = true ∧ s.bytePending = false := by
  simp [State.idle]

/-- An accepted `CONVERT` stays at the command port. -/
theorem SeqInv.accept (hc : s.command = some (encode .convert)) (hi : s.idle = true) :
    SeqInv { s with seq := 1#4 } where
  seqRange := by simp
  port _ := hc
  selected := by simp
  deselected _ := (idle_iff.1 hi).1
  free _ := (idle_iff.1 hi).2
  pending := by simp
  b2Written := by simp
  b3Written := by simp

theorem StepTo.seqInv (h : SeqInv s) (hs : StepTo s t) : SeqInv t := by
  cases hs with
  | engine _ he => exact he.seqInv h.passTurn
  | subStep _ _ hs => exact hs.seqInv h.passTurn
  | idlePort => exact h.passTurn
  | operation w i _ hq hc hw ho =>
    obtain hkeep | ⟨rfl, hi, rfl⟩ := ho.seq_cases
    · exact .of_seq_zero (by simp [hkeep, hq])
    · exact .accept (by simpa [State.command, eq_encode_of_decode_convert hw] using hc) hi

/-- A sub-step holds, or takes `SEQ` up by one, or ends the `CONVERT` with `RESULT` as its response. -/
theorem SubStepTo.seq_cases (h : SubStepTo s t) :
    t.seq = s.seq ∨ (1#4 ≤ s.seq ∧ s.seq ≤ 8#4 ∧ t.seq = s.seq + 1#4) ∨
      (s.seq = 9#4 ∧ t.seq = 0#4 ∧ t.responses = s.responses ++ [t.result]) := by
  cases h with
  | still => exact .inl rfl
  | held => exact .inl rfl
  | select hq => exact .inr (.inl (by simp [hq]))
  | transmit b hk =>
    have hseq : s.seq = 2#4 ∨ s.seq = 4#4 ∨ s.seq = 6#4 := hk.imp And.left (Or.imp And.left And.left)
    exact .inr (.inl ⟨by bv_omega, by bv_omega, rfl⟩)
  | receive rd hk =>
    have hseq : s.seq = 3#4 ∨ s.seq = 5#4 ∨ s.seq = 7#4 := hk.imp And.left (Or.imp And.left And.left)
    exact .inr (.inl ⟨by bv_omega, by bv_omega, rfl⟩)
  | deselect hq => exact .inr (.inl (by simp [hq]))
  | assemble x y hq => exact .inr (.inr ⟨hq, rfl, rfl⟩)

theorem EdgeTo.seq_eq (h : EdgeTo s t) : t.seq = s.seq := by
  cases h <;> rfl

/-! ### What the block never reads -/

/-- A change to what no step reads but a rising edge of ENG, which draws the answers (R29, R42, R68). -/
structure Veil where
  /-- The events put before the trace. -/
  events : List Event
  /-- The responses put before the responses. -/
  responses : List (Option Sample)
  /-- What becomes of `REFUSED`. -/
  mark : Bool → Bool
  /-- What becomes of the answers fixed for `MISO`. -/
  answers : List Level → List Level
  /-- What becomes of the number of draws. -/
  draws : Nat → Nat

/-- `s` so changed. -/
@[simps] def Veil.on (f : Veil) (s : State) : State :=
  { s with
    trace := f.events ++ s.trace
    responses := f.responses ++ s.responses
    refused := f.mark s.refused
    misoIn := f.answers s.misoIn
    drawCount := f.draws s.drawCount }

/-- An attempt with the state after it so changed. -/
def Veil.onAttempt (f : Veil) : Attempt → Attempt
  | .refuse r => .refuse r
  | .hold => .hold
  | .done v t => .done v (f.on t)

namespace Veil

variable (f : Veil) (s : State)

@[simp] theorem on_bytePending : (f.on s).bytePending = s.bytePending := rfl
@[simp] theorem on_idle : (f.on s).idle = s.idle := rfl
@[simp] theorem on_command : (f.on s).command = s.command := rfl
@[simp] theorem on_engineMoves : (f.on s).engineMoves = s.engineMoves := rfl
@[simp] theorem on_rxdrBits : (f.on s).rxdrBits = s.rxdrBits := rfl

/-! Every update of the state commutes with the change. -/

theorem emit_on (e : Event) : (f.on s).emit e = f.on (s.emit e) := by
  simp [on, State.emit]

theorem complete_on (v : Option Sample) : (f.on s).complete v = f.on (s.complete v) := by
  simp [on, State.complete]

theorem passTurn_on : (f.on s).passTurn = f.on s.passTurn := by
  unfold State.passTurn
  rw [on_busy]
  split <;> rfl

theorem latch_on (rd : BitVec 2) (v : Byte) : (f.on s).latch rd v = f.on (s.latch rd v) := by
  unfold State.latch
  split
  · rfl
  · split <;> rfl

theorem selectLow_on : (f.on s).selectLow = f.on s.selectLow := f.emit_on { s with csN := false } .csLow

theorem selectHigh_on : (f.on s).selectHigh = f.on s.selectHigh := f.emit_on { s with csN := true } .csHigh

theorem acceptByte_on (b : Byte) : (f.on s).acceptByte b = f.on (s.acceptByte b) := by
  simp [State.acceptByte, State.emit, on]

theorem returnByte_on (rd : BitVec 2) (v : Byte) : (f.on s).returnByte rd v = f.on (s.returnByte rd v) :=
  calc (f.on s).returnByte rd v = ((f.on { s with rxFresh := false }).latch rd v).emit (.rx v) := rfl
    _ = f.on (s.returnByte rd v) := by rw [latch_on, emit_on]; rfl

theorem engineFall_on : engineFall (f.on s) = f.on (engineFall s) := by
  simp [engineFall, State.emit, State.tsrBits, on]

theorem engineLast_on : engineLast (f.on s) = f.on (engineLast s) := by
  simp [engineLast, State.emit, on]

/-! So does every operation. -/

theorem transmitByte_on (b : Byte) : transmitByte b (f.on s) = f.onAttempt (transmitByte b s) := by
  unfold transmitByte
  rw [on_bytePending, acceptByte_on]
  split <;> rfl

theorem receiveByte_on (rd : BitVec 2) : receiveByte rd (f.on s) = f.onAttempt (receiveByte rd s) := by
  unfold receiveByte
  rw [on_bytePending, on_busy, on_rxdrBits, returnByte_on]
  split
  · rfl
  · split <;> rfl

theorem assertSelect_on : assertSelect (f.on s) = f.onAttempt (assertSelect s) :=
  congrArg (Attempt.done none) (f.selectLow_on s)

theorem deassertSelect_on : deassertSelect (f.on s) = f.onAttempt (deassertSelect s) :=
  congrArg (Attempt.done none) (f.selectHigh_on s)

theorem assembleResult_on : assembleResult (f.on s) = f.onAttempt (assembleResult s) := by
  unfold assembleResult
  rw [on_b2, on_b3]
  split
  · exact congrArg (Attempt.done _) (f.emit_on { s with result := some _ } _)
  · rfl

theorem asOperation_on (a : Attempt) :
    (f.onAttempt a).asOperation (f.on s) = onNext f.on (a.asOperation s) := by
  cases a with
  | refuse r => rfl
  | hold => rfl
  | done v t => exact congrArg Host.Outcome.next (f.complete_on t v)

theorem asSubStep_on (a : Attempt) :
    (f.onAttempt a).asSubStep (f.on s) = onNext f.on (a.asSubStep s) := by
  cases a with
  | refuse r => rfl
  | hold => rfl
  | done v t =>
    simp only [onAttempt, Attempt.asSubStep, on_seq]
    split
    · exact congrArg Host.Outcome.next (f.complete_on { t with seq := 0#4 } v)
    · rfl

theorem exec_on (i : Instr) : exec i (f.on s) = onNext f.on (exec i s) := by
  cases i with
  | select => simp only [exec, execSelect, assertSelect_on, asOperation_on]
  | deselect => simp only [exec, execDeselect, deassertSelect_on, asOperation_on]
  | transmit b => simp only [exec, execTransmit, transmitByte_on, asOperation_on]
  | receive rd =>
    simp only [exec, execReceive, receiveByte_on, asOperation_on]
    split <;> rfl
  | assemble => simp only [exec, execAssemble, assembleResult_on, asOperation_on]
  | convert =>
    simp only [exec, execConvert]
    rw [on_idle]
    split <;> rfl

theorem convertAction_on (k : BitVec 4) : convertAction k (f.on s) = (convertAction k s).map f.onAttempt := by
  unfold convertAction
  simp only [assertSelect_on, deassertSelect_on, transmitByte_on, receiveByte_on, assembleResult_on,
    on_channelByte]
  split <;> rfl

theorem convertStep_on : convertStep (f.on s) = onNext f.on (convertStep s) := by
  unfold convertStep
  rw [on_seq, convertAction_on]
  cases convertAction s.seq s with
  | none => rfl
  | some a => exact f.asSubStep_on s a

variable {s}

/-- An edge of ENG commutes with the change if a rising edge, which draws, does. -/
theorem engineEdge_on (hdraw : s.sclk = false → engineRise (f.on s) = f.on (engineRise s)) :
    engineEdge (f.on s) = onNext f.on (engineEdge s) := by
  unfold engineEdge
  simp only [on_busy, on_sclk, on_bitcnt, engineFall_on, engineLast_on]
  cases hs : s.sclk with
  | false => rw [hdraw hs]; split <;> rfl
  | true =>
    simp only [Bool.not_true, Bool.false_eq_true, if_false]
    split_ifs <;> rfl

/-- A step commutes with the change, if its rising edge does where it is one. -/
theorem step_on (hdraw : s.engineMoves = true → s.sclk = false →
      engineRise (f.on s.passTurn) = f.on (engineRise s.passTurn)) :
    step (f.on s) = onNext f.on (step s) := by
  cases hm : s.engineMoves with
  | true =>
    rw [step_of_engine hm, step_of_engine (s := f.on s) hm, passTurn_on]
    exact f.engineEdge_on (by simpa using hdraw hm)
  | false =>
    by_cases hq : s.seq = 0#4
    · cases hc : s.command with
      | none =>
        rw [step_of_idlePort hm hq hc, step_of_idlePort (s := f.on s) hm hq hc, passTurn_on]
        rfl
      | some w =>
        cases hw : decode w with
        | reservedCommand =>
          rw [step_of_reserved hm hq hc hw, step_of_reserved (s := f.on s) hm hq hc hw]
          rfl
        | op i =>
          rw [step_of_operation hm hq hc hw, step_of_operation (s := f.on s) hm hq hc hw, passTurn_on,
            exec_on]
    · rw [step_of_subStep hm hq, step_of_subStep (s := f.on s) hm hq, passTurn_on, convertStep_on]

/-- A change that leaves the answers and the draws as they are commutes with a rising edge too. -/
theorem engineRise_on (hanswers : f.answers = id) (hdraws : f.draws = id) :
    engineRise (f.on s) = f.on (engineRise s) := by
  simp [engineRise, State.emit, State.drawn, State.misoLevel, State.rsrBits, on, hanswers, hdraws]

end Veil

/-! ### Where a received byte goes -/

theorem returnByte_b2_of_ne {rd : BitVec 2} {v : Byte} (h : (s.returnByte rd v).b2 ≠ s.b2) :
    (s.returnByte rd v).b2 = some v := by
  by_cases hrd : rd = 2#2
  · simp [hrd]
  · simp [hrd] at h

theorem returnByte_b3_of_ne {rd : BitVec 2} {v : Byte} (h : (s.returnByte rd v).b3 ≠ s.b3) :
    (s.returnByte rd v).b3 = some v := by
  by_cases hrd : rd = 3#2
  · simp [hrd]
  · simp [hrd] at h

/-! ### The mark `REFUSED` -/

theorem observe_of_refused {r : Refusal} (h : step s = .refused r) : observe s = s.markRefused := by
  simp [observe, h]

theorem observe_of_next (h : step s = .next t) : observe s = t := by
  simp [observe, h]

theorem observe_keeps_mark (h : s.refused = true) : (observe s).refused = true := by
  cases hs : step s with
  | next t =>
    obtain ⟨es, vs, hg⟩ := (step_next hs).recordGrows
    rw [observe_of_next hs, hg.refused, h]
  | fault r => exact nomatch r
  | refused r => rw [observe_of_refused hs]; rfl

/-! ### The draw of `MISO` -/

@[simp] theorem passTurn_misoLevel (s : State) : s.passTurn.misoLevel = s.misoLevel := by
  simp [State.misoLevel]

end Sys2Proof.Machine

namespace Sys2Proof

open Sys2Proof.Machine

/-- Settles O42: each effect on the shift path keeps the invariant; the last edge is the one that needs the
mode 0 invariants, for `MOSI`. -/
theorem stepKeepsShiftPath : Obligations.StepKeepsShiftPath := by
  intro s t hw h hs
  obtain ⟨u, c, he, rfl⟩ := step_effect hs
  exact (he.shiftInv hw h).congr rfl id rfl rfl rfl rfl rfl rfl

/-- Settles O43, sub-step by sub-step; an operation of the host leaves `SEQ` at 0 or is the acceptance. -/
theorem stepKeepsConvertPhase : Obligations.StepKeepsConvertPhase :=
  fun _ _ h hs => (step_next hs).seqInv h

/-- Settles O47: an effect at a time; under the mode 0 invariants the clock is low where a byte is accepted. -/
theorem wiresMoveOnlyWhereAllowed : Obligations.WiresMoveOnlyWhereAllowed := by
  intro s t hw hs
  obtain ⟨u, c, he, rfl⟩ := step_effect hs
  cases he with
  | none => simp
  | rise hm => simp [hm]
  | fall hm _ hc => simp [hm, hc]
  | last hm => simp [hm]
  | select => simp
  | deselect => simp
  | transmit b hp => simp [hw.idleClock (bytePending_eq_false.1 hp).1]
  | receive rd => simp
  | assemble x y => simp

/-- Settles O48, an effect at a time. -/
theorem flagsMoveOnlyWhereAllowed : Obligations.FlagsMoveOnlyWhereAllowed := by
  intro s t hs
  obtain ⟨u, c, he, rfl⟩ := step_effect hs
  cases he with
  | none => simp +contextual
  | rise _ hb => simp +contextual [hb]
  | fall _ hb => simp +contextual [hb]
  | last hm hb hc hn => simp [hm, hb, hc, hn]
  | select => simp +contextual
  | deselect => simp +contextual
  | transmit b hp => simp [(bytePending_eq_false.1 hp).2]
  | receive rd hb =>
    have hbyte : ∀ x, s.rxdr = some x → s.rxdrBits = x := fun _ => State.rxdrBits_of_some
    exact ⟨by simp [hb], by simp [hb], by simp, fun _ _ => ⟨_, hbyte, by simp⟩⟩
  | assemble x y => simp +contextual

/-- Settles O49, an effect at a time. -/
theorem dataRegistersWrittenOnlyWhereAllowed : Obligations.DataRegistersWrittenOnlyWhereAllowed := by
  intro s t hs
  obtain ⟨u, c, he, rfl⟩ := step_effect hs
  cases he with
  | none => simp
  | rise => simp
  | fall => simp
  | last => simp
  | select => simp
  | deselect => simp
  | transmit b => simp
  | receive rd =>
    have hbyte : ∀ x, s.rxdr = some x → s.rxdrBits = x := fun _ => State.rxdrBits_of_some
    exact ⟨fun hb2 => ⟨_, hbyte, returnByte_b2_of_ne hb2, by simp⟩,
      fun hb3 => ⟨_, hbyte, returnByte_b3_of_ne hb3, by simp⟩, by simp, by simp, by simp⟩
  | assemble x y hx hy => simp [hx, hy]

/-- Settles O50, from what each branch of the step does to `SEQ`. -/
theorem seqMovesInOrder : Obligations.SeqMovesInOrder := by
  intro s t _ hs
  have h := step_next hs
  cases h with
  | engine _ he => exact .inl (by simpa using he.seq_eq)
  | subStep _ _ hsub =>
    obtain h | h | h := hsub.seq_cases
    · exact .inl (by simpa using h)
    · exact .inr (.inr (.inl (by simpa using h)))
    · exact .inr (.inr (.inr (by simpa using h)))
  | idlePort => exact .inl (by simp)
  | operation w i _ hq _ _ ho =>
    obtain h | ⟨-, hi, rfl⟩ := ho.seq_cases
    · exact .inl (by simpa using h)
    · exact .inr (.inl ⟨hq, rfl, by simpa [State.idle, State.bytePending] using hi⟩)

/-- Settles O52: a step that is no rising edge commutes with any change of the answers. -/
theorem misoReadOnlyAtRisingEdges : Obligations.MisoReadOnlyAtRisingEdges := by
  intro s t hs
  by_cases hrise : s.engineMoves = true ∧ s.sclk = false
  · obtain ⟨hm, hc⟩ := hrise
    have ht : step s = .next (engineRise s.passTurn) := by
      simp [step_of_engine hm, engineEdge, engineMoves_busy hm, hc]
    obtain rfl := Host.Outcome.next.inj (hs.symm.trans ht)
    exact .inl ⟨hm, hc, by simp⟩
  · have hstep : ∀ (ms : List Level) (n : Nat), step { s with misoIn := ms, drawCount := n }
        = .next { t with misoIn := ms, drawCount := n } := by
      intro ms n
      have h := (Veil.mk [] [] id (fun _ => ms) (fun _ => n)).step_on (s := s)
        (fun hm hc => absurd ⟨hm, hc⟩ hrise)
      rwa [hs] at h
    obtain ⟨u, c, he, rfl⟩ := step_effect hs
    cases he with
    | rise hm _ hc => exact absurd ⟨hm, hc⟩ hrise
    | none => exact .inr ⟨rfl, rfl, hstep⟩
    | fall => exact .inr ⟨rfl, rfl, hstep⟩
    | last => exact .inr ⟨rfl, rfl, hstep⟩
    | select => exact .inr ⟨rfl, rfl, hstep⟩
    | deselect => exact .inr ⟨rfl, rfl, hstep⟩
    | transmit => exact .inr ⟨rfl, rfl, hstep⟩
    | receive => exact .inr ⟨by simp, by simp, hstep⟩
    | assemble => exact .inr ⟨rfl, rfl, hstep⟩

/-- Settles O53: the records are among what the block never reads, and a rising edge draws the same. -/
theorem recordsAreNeverRead : Obligations.RecordsAreNeverRead := by
  intro s es vs b
  exact (Veil.mk es vs (fun _ => b) id id).step_on fun _ _ => Veil.engineRise_on _ rfl rfl

/-- Settles O55: the mark is set by a refusal and kept by a next step, so by any number of steps. -/
theorem refusalMarkIsSticky : Obligations.RefusalMarkIsSticky :=
  ⟨fun _ _ => observe_of_refused, fun _ _ => observe_of_next,
    fun k _ h => Function.Iterate.rec (fun s : State => s.refused = true) h (fun _ => observe_keeps_mark) k⟩

/-- Settles O24, edge by edge. -/
theorem engineFrame : Obligations.EngineFrame := by
  intro s t h
  cases engineEdge_next h with
  | rise => simp
  | fall => simp
  | last => simp
  | still => simp

/-- Settles O41, on the reset levels. -/
theorem resetHasWireInvariants : Obligations.ResetHasWireInvariants := by
  constructor <;> decide

/-- Settles O44, on the reset levels; `SEQ` is 0. -/
theorem resetHasShiftAndConvertInvariants : Obligations.ResetHasShiftAndConvertInvariants :=
  ⟨by constructor <;> decide, .of_seq_zero rfl⟩

end Sys2Proof
end

section
/-! PROOFS of the statements of spec/20_memory.md: what each operation of the host leaves unchanged (R34), where the
bytes and the sample of a frame stand on the wire (R35, R36), which operations are idempotent (R40), and that
`SELECT`, `DESELECT` and `ASSEMBLE` do not disturb a byte in flight (R43). -/

namespace Sys2Proof.Machine

variable {s t : State}

/-! ### Operations that complete and operations that are refused -/

theorem exec_assemble {x y : Byte} (hx : s.b2 = some x) (hy : s.b3 = some y) :
    exec .assemble s = .next (State.complete (some (assembleBytes x y))
      (State.emit (.result (assembleBytes x y)) { s with result := some (assembleBytes x y) })) := by
  simp only [exec, execAssemble, asOperation_next]
  exact .inr ⟨_, _, assembleResult_done.2 ⟨x, y, hx, hy, rfl, rfl⟩, rfl⟩

theorem exec_receive_of_nothingPending {rd : BitVec 2} (hrd : rd ≠ 1#2) (hp : s.bytePending = false) :
    exec (.receive rd) s = .refused .receiveWithoutTransmit := by
  simp only [exec, execReceive, if_neg hrd, asOperation_refused]
  exact receiveByte_refuse.2 ⟨hp, rfl⟩

/-! ### Beside a byte in flight -/

theorem EdgeTo.engineEdge_eq (h : EdgeTo s t) : engineEdge s = .next t := by
  cases h with
  | rise hb hs => simp [engineEdge, hb, hs]
  | fall hb hs hn => simp [engineEdge, hb, hs, hn]
  | last hb hs hn => simp [engineEdge, hb, hs, hn]
  | still h =>
    obtain hb | ⟨hs, hn⟩ := h
    · simp [engineEdge, hb]
    · have hlt : ¬ s.bitcnt < 7#4 := by bv_omega
      have hne : s.bitcnt ≠ 7#4 := by bv_omega
      simp [engineEdge, hs, hlt, hne]

/-- A write of SEQ that keeps to what ENG neither reads nor writes: the select line and `RESULT`; with it one event
and the completion of the operation. -/
structure ProtocolWrite where
  /-- What becomes of `CS_N`. -/
  csN : Level → Level
  /-- What becomes of `RESULT`. -/
  result : Option Sample → Option Sample
  /-- The event emitted. -/
  event : Event
  /-- The response returned. -/
  response : Option Sample

/-- `s` so written. -/
def ProtocolWrite.on (f : ProtocolWrite) (s : State) : State :=
  State.complete f.response (State.emit f.event { s with csN := f.csN s.csN, result := f.result s.result })

/-- `SELECT`, `DESELECT` and `ASSEMBLE` are such writes, the same one in every state with these `B2` and `B3`. -/
theorem exec_protocolWrite {u : State} {i : Instr} (hi : i = .select ∨ i = .deselect ∨ i = .assemble)
    (h : exec i s = .next u) :
    ∃ f : ProtocolWrite, ∀ r : State, r.b2 = s.b2 → r.b3 = s.b3 → exec i r = .next (f.on r) := by
  obtain rfl | rfl | rfl := hi
  · exact ⟨⟨fun _ => false, id, .csLow, none⟩, fun _ _ _ => rfl⟩
  · exact ⟨⟨fun _ => true, id, .csHigh, none⟩, fun _ _ _ => rfl⟩
  · cases exec_next h with
    | assemble x y hx hy =>
      exact ⟨⟨id, fun _ => some (assembleBytes x y), .result (assembleBytes x y), some (assembleBytes x y)⟩,
        fun _ h2 h3 => exec_assemble (h2.trans hx) (h3.trans hy)⟩

/-- ENG takes the same edge beside such a write; the two events change places. -/
theorem EdgeTo.protocolWrite (f : ProtocolWrite) (h : EdgeTo s t) :
    ∃ y, EdgeTo (f.on s) y ∧ { f.on t with trace := [] } = { y with trace := [] } := by
  cases h with
  | rise hb hs => exact ⟨_, .rise hb hs, rfl⟩
  | fall hb hs hn => exact ⟨_, .fall hb hs hn, rfl⟩
  | last hb hs hn => exact ⟨_, .last hb hs hn, rfl⟩
  | still h => exact ⟨_, .still h, rfl⟩

theorem EdgeTo.keeps_b2_b3 (h : EdgeTo s t) : t.b2 = s.b2 ∧ t.b3 = s.b3 := by
  cases h <;> exact ⟨rfl, rfl⟩

/-! ### The frame on the wire -/

/-- The byte an event transmits. -/
def Event.txByte : Event → Option Byte
  | .tx b => some b
  | _ => none

/-- The level of `MOSI` at a rising edge. -/
def Event.mosiAtRise : Event → Option Level
  | .rise m _ => some m
  | _ => none

section Phase

variable (b r : Byte)

theorem phaseTrace_txBytes : (phaseTrace b r).filterMap Event.txByte = [b] := rfl
theorem phaseTrace_mosiAtRises : (phaseTrace b r).filterMap Event.mosiAtRise = bitsOnWire b := rfl
theorem byteLevel_phaseTrace : byteLevel (phaseTrace b r) = [.tx b, .rx r] := rfl

end Phase

theorem byteLevel_append (es fs : List Event) : byteLevel (es ++ fs) = byteLevel es ++ byteLevel fs :=
  List.filter_append es fs

section Frame

variable (ch r1 r2 r3 : Byte)

theorem frameTrace_txBytes :
    (frameTrace ch r1 r2 r3).filterMap Event.txByte = [startByte, ch, fillerByte] := by
  simp only [frameTrace, List.filterMap_append, phaseTrace_txBytes]
  rfl

theorem frameTrace_mosiAtRises :
    (frameTrace ch r1 r2 r3).filterMap Event.mosiAtRise = frameOutBits ch := by
  simp only [frameTrace, List.filterMap_append, phaseTrace_mosiAtRises]
  rfl

theorem byteLevel_frameTrace :
    byteLevel (frameTrace ch r1 r2 r3)
      = [.csLow, .tx startByte, .rx r1, .tx ch, .rx r2, .tx fillerByte, .rx r3, .csHigh,
          .result (assembleBytes r2 r3)] := by
  simp only [frameTrace, byteLevel_append, byteLevel_phaseTrace]
  rfl

end Frame

/-- Bit 0 of the start byte, at cycle 8, is the only 1; from cycle 25 on there are no levels. -/
theorem frameOutBits_default_eq_true_iff (n : Nat) :
    (frameOutBits Config.defaultChannelByte)[n]? = some true ↔ n = 7 := by
  have hcycle : ∀ n < 24, (frameOutBits Config.defaultChannelByte)[n]? = some true ↔ n = 7 := by decide
  by_cases hn : n < 24
  · exact hcycle n hn
  · have hnone : (frameOutBits Config.defaultChannelByte)[n]? = none := List.getElem?_eq_none (not_lt.1 hn)
    have hne : n ≠ 7 := by omega
    simp [hnone, hne]

/-- The mask keeps the two low bits of the second byte, the shift puts them above the third. -/
theorem assembleBytes_eq_append (x y : Byte) : assembleBytes x y = x.extractLsb' 0 2 ++ y := by
  apply BitVec.eq_of_getLsbD_eq
  intro i hi
  simp only [assembleBytes, statusMask, highShift, zext10, BitVec.getLsbD_append]
  interval_cases i <;> simp

theorem getLsbD_assembleBytes (x y : Byte) (i : Nat) :
    (assembleBytes x y).getLsbD i = if i < 8 then y.getLsbD i else decide (i < 10) && x.getLsbD (i - 8) := by
  rw [assembleBytes_eq_append, BitVec.getLsbD_append, BitVec.getLsbD_extractLsb']
  have hlow : i - 8 < 2 ↔ i < 10 := by omega
  simp [hlow]

end Sys2Proof.Machine

namespace Sys2Proof

open Sys2Proof.Machine

/-- Settles O39: the operation is a write beside the registers of ENG, decided by `B2` and `B3`, which ENG keeps;
so it is the same write after the edge as before it. -/
theorem engineCommutesWithSelectAndAssemble : Obligations.EngineCommutesWithSelectAndAssemble := by
  intro s u t i hi hu ht
  obtain ⟨f, hf⟩ := exec_protocolWrite hi hu
  obtain rfl := Host.Outcome.next.inj ((hf s rfl rfl).symm.trans hu)
  have hedge := engineEdge_next ht
  obtain ⟨hb2, hb3⟩ := hedge.keeps_b2_b3
  obtain ⟨y, hy, hsame⟩ := hedge.protocolWrite f
  exact ⟨f.on t, y, hf t hb2 hb3, hy.engineEdge_eq, hsame⟩

/-- Settles O23: the acceptance, then one sub-step of R81 after the other. -/
theorem convertFrame : Obligations.ConvertFrame := by
  constructor
  · intro s t h
    cases exec_next h with
    | accept => exact ⟨rfl, rfl⟩
  · intro s t h
    cases convertStep_next h with
    | still => simp
    | held => simp
    | select hq => simp [hq]
    | transmit b hk => obtain ⟨hq, -⟩ | ⟨hq, -⟩ | ⟨hq, -⟩ := hk <;> simp [hq]
    | receive rd hk => obtain ⟨hq, rfl⟩ | ⟨hq, rfl⟩ | ⟨hq, rfl⟩ := hk <;> simp [hq]
    | deselect hq => simp [hq]
    | assemble x y hq => simp [hq]

/-- Settles O19: both complete with the select line as the one register written. -/
theorem selectAndDeselectFrame : Obligations.SelectAndDeselectFrame := by
  intro s t h
  obtain h | h := h
  · cases exec_next h with
    | select => simp
  · cases exec_next h with
    | deselect => simp

/-- Settles O20: the one way `TRANSMIT` completes accepts the byte. -/
theorem transmitFrame : Obligations.TransmitFrame := by
  intro s t b h
  cases exec_next h with
  | transmit => simp

/-- Settles O21: a hold is the state itself; a completion returns the byte and latches it where `rd` says. -/
theorem receiveFrame : Obligations.ReceiveFrame := by
  intro s t rd h
  cases exec_next h with
  | held _ _ hb => simp [hb]
  | receive _ _ hb => simp +contextual [hb]

/-- Settles O22: the one way `ASSEMBLE` completes writes `RESULT` and returns it. -/
theorem assembleFrame : Obligations.AssembleFrame := by
  intro s t h
  cases exec_next h with
  | assemble x y => simp

/-- Settles O30: each phase transmits its byte, drives the bits of it, and receives one. -/
theorem frameOutOnMosi : Obligations.FrameOutOnMosi := by
  intro ch r1 r2 r3
  exact ⟨frameTrace_txBytes ch r1 r2 r3, frameTrace_mosiAtRises ch r1 r2 r3, frameOutBits_default_eq_true_iff,
    byteLevel_frameTrace ch r1 r2 r3⟩

/-- Settles O31: the sample is the two low bits of the second byte and the third byte, and these are the last ten
levels. -/
theorem frameInCarriesSample : Obligations.FrameInCarriesSample := by
  intro r1 r2 r3
  simp only [sampleBits, getLsbD_assembleBytes]
  rfl

/-- Settles O59: the first `RECEIVE` leaves no byte pending, and `ASSEMBLE` leaves `B2` and `B3` as it read them. -/
theorem receiveOnceAssembleAgain : Obligations.ReceiveOnceAssembleAgain := by
  constructor
  · intro s t rd rd' hrd' hb h
    cases exec_next h with
    | held _ _ hb' => simp [hb] at hb'
    | receive => exact exec_receive_of_nothingPending hrd' (by simp [bytePending_eq_false, hb])
  · intro s t h
    cases exec_next h with
    | assemble x y hx hy => exact ⟨_, exec_assemble (x := x) (y := y) hx hy, rfl, rfl, rfl⟩

end Sys2Proof
end

section
/-! PROOFS of the statements of spec/30_encoding.md: the fields and the rows of the command word (R48, R49), what the
decoder accepts and how many words of each kind there are (R53), the textual form (R56), `RECEIVE` (R51, R52), and
`FRAME` beside `CONVERT` (R57, R83). -/

namespace Sys2Proof

open Sys2Proof.Machine

variable {w : Cmd} {i : Instr}

/-! ### The fields of a command word (R48) -/

theorem toNat_eq_fields (w : Cmd) :
    w.toNat = 4096 * (opField w).toNat + 1024 * (zField w).toNat + 256 * (rdField w).toNat
      + (imm8Field w).toNat := by
  simp only [opField, zField, rdField, imm8Field, BitVec.extractLsb'_toNat, Nat.shiftRight_eq_div_pow]
  have := w.isLt
  omega

/-- A word is its four fields. -/
theorem cmd_eq_iff {v : Cmd} : w = v ↔
    opField w = opField v ∧ zField w = zField v ∧ rdField w = rdField v ∧ imm8Field w = imm8Field v := by
  refine ⟨by rintro rfl; simp, ?_⟩
  rintro ⟨hop, hz, hrd, himm⟩
  exact BitVec.eq_of_toNat_eq (by rw [toNat_eq_fields w, toNat_eq_fields v, hop, hz, hrd, himm])

section Cmd16

variable (op : BitVec 4) (rd : BitVec 2) (b : Byte)

@[simp] theorem opField_cmd16 : opField (cmd16 op rd b) = op :=
  calc opField (cmd16 op rd b)
    _ = (op ++ 0#2 ++ rd).extractLsb' 4 4 := BitVec.extractLsb'_append_eq_of_le (by decide)
    _ = (op ++ 0#2).extractLsb' 2 4 := BitVec.extractLsb'_append_eq_of_le (by decide)
    _ = op := BitVec.extractLsb'_append_eq_left
@[simp] theorem zField_cmd16 : zField (cmd16 op rd b) = 0#2 :=
  calc zField (cmd16 op rd b)
    _ = (op ++ 0#2 ++ rd).extractLsb' 2 2 := BitVec.extractLsb'_append_eq_of_le (by decide)
    _ = (op ++ 0#2).extractLsb' 0 2 := BitVec.extractLsb'_append_eq_of_le (by decide)
    _ = 0#2 := BitVec.extractLsb'_append_eq_right
@[simp] theorem rdField_cmd16 : rdField (cmd16 op rd b) = rd :=
  calc rdField (cmd16 op rd b)
    _ = (op ++ 0#2 ++ rd).extractLsb' 0 2 := BitVec.extractLsb'_append_eq_of_le (by decide)
    _ = rd := BitVec.extractLsb'_append_eq_right
@[simp] theorem imm8Field_cmd16 : imm8Field (cmd16 op rd b) = b :=
  BitVec.extractLsb'_append_eq_right

end Cmd16

/-- The destination an operation names; 0 in every operation but `RECEIVE`. -/
def Instr.rdOperand : Instr → BitVec 2
  | .receive rd => rd
  | _ => 0#2

/-- The byte an operation carries; 0 in every operation but `TRANSMIT`. -/
def Instr.imm8Operand : Instr → Byte
  | .transmit b => b
  | _ => 0#8

theorem encode_eq_cmd16 (i : Instr) : encode i = cmd16 i.opcode i.rdOperand i.imm8Operand := by
  cases i <;> rfl

@[simp] theorem opField_encode (i : Instr) : opField (encode i) = i.opcode := by simp [encode_eq_cmd16]
@[simp] theorem zField_encode (i : Instr) : zField (encode i) = 0#2 := by simp [encode_eq_cmd16]
@[simp] theorem rdField_encode (i : Instr) : rdField (encode i) = i.rdOperand := by simp [encode_eq_cmd16]
@[simp] theorem imm8Field_encode (i : Instr) : imm8Field (encode i) = i.imm8Operand := by
  simp [encode_eq_cmd16]

theorem rdOperand_eq_zero (h : ∀ rd, i ≠ .receive rd) : i.rdOperand = 0#2 := by
  cases i with
  | receive rd => exact absurd rfl (h rd)
  | _ => rfl

theorem imm8Operand_eq_zero (h : ∀ b, i ≠ .transmit b) : i.imm8Operand = 0#8 := by
  cases i with
  | transmit b => exact absurd rfl (h b)
  | _ => rfl

/-- A word is the encoding of an operation when its fields are the operation's. -/
theorem eq_encode_iff : w = encode i ↔
    opField w = i.opcode ∧ zField w = 0#2 ∧ rdField w = i.rdOperand ∧ imm8Field w = i.imm8Operand := by
  simp [cmd_eq_iff]

/-! ### The rows of match and mask (R49) -/

/-- A row selects field by field. -/
theorem selectsRow_iff {row : Cmd × Cmd} : selectsRow w row = true ↔
    opField w &&& opField row.2 = opField row.1 ∧ zField w &&& zField row.2 = zField row.1 ∧
      rdField w &&& rdField row.2 = rdField row.1 ∧ imm8Field w &&& imm8Field row.2 = imm8Field row.1 := by
  simp [selectsRow, cmd_eq_iff, opField, zField, rdField, imm8Field, BitVec.extractLsb'_and]

/-- A row whose mask keeps every bit selects one word. -/
theorem selectsRow_exact {v : Cmd} : selectsRow w (v, 0xFFFF#16) = true ↔ w = v := by
  simp only [selectsRow, beq_iff_eq]
  exact Iff.of_eq (congrArg (· = v) BitVec.and_allOnes)

theorem selectsRow_select : selectsRow w rowSelect = true ↔ w = encode .select := selectsRow_exact
theorem selectsRow_deselect : selectsRow w rowDeselect = true ↔ w = encode .deselect := selectsRow_exact
theorem selectsRow_assemble : selectsRow w rowAssemble = true ↔ w = encode .assemble := selectsRow_exact
theorem selectsRow_convert : selectsRow w rowConvert = true ↔ w = encode .convert := selectsRow_exact

theorem selectsRow_transmit : selectsRow w rowTransmit = true ↔
    opField w = 3#4 ∧ zField w = 0#2 ∧ rdField w = 0#2 := by
  have hmask : selectsRow w rowTransmit = true ↔
      opField w &&& BitVec.allOnes 4 = 3#4 ∧ zField w &&& BitVec.allOnes 2 = 0#2 ∧
        rdField w &&& BitVec.allOnes 2 = 0#2 ∧ imm8Field w &&& 0#8 = 0#8 := selectsRow_iff
  simp only [hmask, BitVec.and_allOnes, BitVec.and_zero, and_true]

theorem selectsRow_receive : selectsRow w rowReceive = true ↔
    opField w = 4#4 ∧ zField w = 0#2 ∧ imm8Field w = 0#8 := by
  have hmask : selectsRow w rowReceive = true ↔
      opField w &&& BitVec.allOnes 4 = 4#4 ∧ zField w &&& BitVec.allOnes 2 = 0#2 ∧
        rdField w &&& 0#2 = 0#2 ∧ imm8Field w &&& BitVec.allOnes 8 = 0#8 := selectsRow_iff
  simp only [hmask, BitVec.and_allOnes, BitVec.and_zero, true_and]

theorem eq_encode_transmit_iff {b : Byte} :
    w = encode (.transmit b) ↔ selectsRow w rowTransmit = true ∧ b = imm8Field w := by
  rw [eq_encode_iff, selectsRow_transmit, eq_comm (a := b), and_assoc, and_assoc]
  rfl

theorem eq_encode_receive_iff {rd : BitVec 2} :
    w = encode (.receive rd) ↔ selectsRow w rowReceive = true ∧ rd = rdField w := by
  rw [eq_encode_iff, selectsRow_receive, eq_comm (a := rd), and_assoc, and_assoc, and_comm (b := rdField w = rd)]
  rfl

/-- Where both masks keep a bit, two rows that one word selects have that word's bit in their match words. -/
theorem selectsRow_eq_false_of_disjoint {a b : Cmd × Cmd} (h : rowsDisjoint a b = true)
    (ha : selectsRow w a = true) : selectsRow w b = false := by
  by_contra hb
  rw [Bool.not_eq_false] at hb
  refine bne_iff_ne.1 h (BitVec.eq_of_getLsbD_eq fun k _ => ?_)
  rw [← beq_iff_eq.1 ha, ← beq_iff_eq.1 hb]
  simp only [BitVec.getLsbD_and, BitVec.getLsbD_xor, BitVec.getLsbD_zero]
  cases w.getLsbD k <;> cases a.2.getLsbD k <;> cases b.2.getLsbD k <;> rfl

theorem selectedRows_length_le_one (w : Cmd) : (opcodeRows.filter (selectsRow w)).length ≤ 1 := by
  have hdisjoint : opcodeRows.Pairwise fun a b => rowsDisjoint a b = true := by decide
  have hnone : (opcodeRows.filter (selectsRow w)).Pairwise fun _ _ => False := by
    rw [List.pairwise_filter]
    refine hdisjoint.imp fun hd ha hb => ?_
    simp [selectsRow_eq_false_of_disjoint hd ha] at hb
  match h : opcodeRows.filter (selectsRow w) with
  | [] => simp
  | [_] => simp
  | _ :: b :: _ => exact ((List.pairwise_cons.1 (h ▸ hnone)).1 b List.mem_cons_self).elim

/-! ### Decoding (R53) -/

theorem decode_encode (h : i.wellFormed = true) : decode (encode i) = .op i := by
  simp only [decode, selectsRow_select, selectsRow_deselect, selectsRow_transmit, selectsRow_receive,
    selectsRow_assemble, selectsRow_convert, eq_encode_iff, Bool.and_eq_true, opField_encode, zField_encode,
    rdField_encode, imm8Field_encode]
  cases i with
  | receive rd =>
    have hrd : rdLegal rd = true := h
    simp [Instr.opcode, Instr.rdOperand, Instr.imm8Operand, hrd]
  | _ => simp [Instr.opcode, Instr.rdOperand, Instr.imm8Operand]

theorem eq_encode_of_decode (h : decode w = .op i) : i.wellFormed = true ∧ w = encode i := by
  unfold decode at h
  split_ifs at h with hselect hdeselect htransmit hreceive hassemble hconvert <;> cases h
  · exact ⟨rfl, selectsRow_select.1 hselect⟩
  · exact ⟨rfl, selectsRow_deselect.1 hdeselect⟩
  · exact ⟨rfl, eq_encode_transmit_iff.2 ⟨htransmit, rfl⟩⟩
  · obtain ⟨hrow, hrd⟩ := Bool.and_eq_true_iff.1 hreceive
    exact ⟨hrd, eq_encode_receive_iff.2 ⟨hrow, rfl⟩⟩
  · exact ⟨rfl, selectsRow_assemble.1 hassemble⟩
  · exact ⟨rfl, selectsRow_convert.1 hconvert⟩

theorem decode_eq_op_iff : decode w = .op i ↔ i.wellFormed = true ∧ w = encode i :=
  ⟨eq_encode_of_decode, fun ⟨hi, hw⟩ => hw ▸ decode_encode hi⟩

/-- The words that name an operation, by their fields. -/
theorem exists_decode_eq_op_iff : (∃ i, decode w = .op i) ↔ zField w = 0#2 ∧
    (((opField w = 0x1#4 ∨ opField w = 0x2#4 ∨ opField w = 0x5#4 ∨ opField w = 0x6#4) ∧
        rdField w = 0#2 ∧ imm8Field w = 0#8) ∨
      (opField w = 0x3#4 ∧ rdField w = 0#2) ∨
      (opField w = 0x4#4 ∧ imm8Field w = 0#8 ∧ rdField w ≠ 1#2)) := by
  simp only [decode_eq_op_iff, eq_encode_iff]
  constructor
  · rintro ⟨i, hi, hop, hz, hrd, himm⟩
    refine ⟨hz, ?_⟩
    cases i with
    | receive rd =>
      have hne : rd ≠ 1#2 := bne_iff_ne.1 hi
      exact .inr (.inr ⟨hop, himm, hrd ▸ hne⟩)
    | transmit b => exact .inr (.inl ⟨hop, hrd⟩)
    | _ => exact .inl ⟨by simp [hop, Instr.opcode], hrd, himm⟩
  · rintro ⟨hz, ⟨hop | hop | hop | hop, hrd, himm⟩ | ⟨hop, hrd⟩ | ⟨hop, himm, hne⟩⟩
    · exact ⟨.select, rfl, hop, hz, hrd, himm⟩
    · exact ⟨.deselect, rfl, hop, hz, hrd, himm⟩
    · exact ⟨.assemble, rfl, hop, hz, hrd, himm⟩
    · exact ⟨.convert, rfl, hop, hz, hrd, himm⟩
    · exact ⟨.transmit (imm8Field w), rfl, hop, hz, hrd, rfl⟩
    · exact ⟨.receive (rdField w), bne_iff_ne.2 hne, hop, hz, rfl, himm⟩

theorem decode_eq_reserved_iff : decode w = .reservedCommand ↔ ¬ ∃ i, decode w = .op i := by
  cases decode w <;> simp

theorem decode_eq_reserved_of_opcode (h : opField w = 0x0#4 ∨ 0x7#4 ≤ opField w) :
    decode w = .reservedCommand := by
  rw [decode_eq_reserved_iff, exists_decode_eq_op_iff]
  rintro ⟨-, ⟨hop, -⟩ | ⟨hop, -⟩ | ⟨hop, -⟩⟩ <;> bv_omega

theorem opcode_cases : ∀ op : BitVec 4, (op = 0x0#4 ∨ 0x7#4 ≤ op) ∨
    op = 0x1#4 ∨ op = 0x2#4 ∨ op = 0x3#4 ∨ op = 0x4#4 ∨ op = 0x5#4 ∨ op = 0x6#4 := by
  decide

/-! ### How many words there are of each kind (R53) -/

theorem wordCount_eq_card (p : Decoded → Bool) :
    wordCount p = (Finset.univ.filter fun w : Cmd => p (decode w) = true).card := by
  have hcount : wordCount p = Nat.count (fun n => p (decode (BitVec.ofNat 16 n)) = true) 65536 := by
    simp [wordCount, Nat.count]
  rw [hcount, Nat.count_eq_card_filter_range]
  refine Finset.card_nbij' (BitVec.ofNat 16) BitVec.toNat ?_ ?_ ?_ ?_
  · intro n hn
    simpa using (Finset.mem_filter.1 hn).2
  · intro w hw
    simpa [w.isLt] using hw
  · intro n hn
    have hlt : n < 65536 := Finset.mem_range.1 (Finset.mem_filter.1 hn).1
    simpa using hlt
  · intro w _
    simp

/-- The words of a kind are the encodings of the well-formed operations of that kind. -/
theorem wordCount_eq_card_of {p : Decoded → Bool} (ops : Finset Instr) (hreserved : p .reservedCommand = false)
    (hops : ∀ i, i ∈ ops ↔ i.wellFormed = true ∧ p (.op i) = true) : wordCount p = ops.card := by
  rw [wordCount_eq_card]
  refine (Finset.card_nbij encode ?_ ?_ ?_).symm
  · intro i hi
    obtain ⟨hwf, hp⟩ := (hops i).1 hi
    simpa [decode_encode hwf] using hp
  · intro i hi j hj h
    have hdecode : Decoded.op i = .op j := by
      rw [← decode_encode ((hops i).1 hi).1, h, decode_encode ((hops j).1 hj).1]
    exact Decoded.op.inj hdecode
  · intro w hw
    have hp : p (decode w) = true := (Finset.mem_filter.1 hw).2
    cases hd : decode w with
    | reservedCommand => simp [hd, hreserved] at hp
    | op i =>
      obtain ⟨hwf, rfl⟩ := eq_encode_of_decode hd
      exact ⟨i, (hops i).2 ⟨hwf, hd ▸ hp⟩, rfl⟩

theorem wordCount_transmit : wordCount namesTransmit = 256 := by
  rw [wordCount_eq_card_of (Finset.univ.image Instr.transmit) rfl fun i => ?_,
    Finset.card_image_of_injective _ fun _ _ h => Instr.transmit.inj h]
  · rw [Finset.card_univ, ← FinEnum.card_eq_fintypeCard, FinEnum.card_bitVec]
    norm_num
  · cases i <;> simp [namesTransmit, Instr.wellFormed]

theorem wordCount_receive : wordCount namesReceive = 3 := by
  rw [wordCount_eq_card_of {.receive 0#2, .receive 2#2, .receive 3#2} rfl fun i => ?_]
  · decide
  · cases i with
    | receive rd => revert rd; decide
    | _ => simp [namesReceive]

theorem wordCount_other : wordCount namesOther = 4 := by
  rw [wordCount_eq_card_of {.select, .deselect, .assemble, .convert} rfl fun i => ?_]
  · decide
  · cases i <;> simp [namesOther, Instr.wellFormed]

/-- Every word is of one kind. -/
theorem countP_kinds (ds : List Decoded) : ds.countP namesTransmit + ds.countP namesReceive
      + ds.countP namesOther + ds.countP namesReserved = ds.length := by
  have hone : ∀ d : Decoded, (if namesTransmit d then 1 else 0) + (if namesReceive d then 1 else 0)
      + (if namesOther d then 1 else 0) + (if namesReserved d then 1 else 0) = 1 := by
    rintro (i | _)
    · cases i <;> rfl
    · rfl
  induction ds with
  | nil => rfl
  | cons d ds ih =>
    simp only [List.countP_cons, List.length_cons]
    have := hone d
    omega

theorem wordCount_sum : wordCount namesTransmit + wordCount namesReceive
      + wordCount namesOther + wordCount namesReserved = 65536 := by
  have hlist (p : Decoded → Bool) :
      wordCount p = ((List.range 65536).map fun n => decode (BitVec.ofNat 16 n)).countP p :=
    List.countP_map.symm
  simp only [hlist, countP_kinds, List.length_map, List.length_range]

/-! ### The textual form (R56) -/

theorem splitLine_space (acc cs : List Char) :
    splitLine acc (' ' :: cs) = if acc.isEmpty then splitLine [] cs else acc.reverse :: splitLine [] cs := rfl

theorem splitLine_letter {c : Char} (acc cs : List Char) (hcomment : c ≠ ';') (hspace : c ≠ ' ') :
    splitLine acc (c :: cs) = splitLine (c :: acc) cs := by
  rw [splitLine, if_neg hcomment, if_neg hspace]

/-- A comment after a space is no part of the line. -/
theorem splitLine_comment (comment t : List Char) (h : ';' ∉ t) :
    ∀ acc, splitLine acc (t ++ ' ' :: ';' :: comment) = splitLine acc t := by
  induction t with
  | nil => exact fun _ => rfl
  | cons c cs ih =>
    intro acc
    have ih := ih (List.not_mem_of_not_mem_cons h)
    by_cases hc : c = ' '
    · rw [hc, List.cons_append, splitLine_space, splitLine_space, ih]
    · have hne : c ≠ ';' := fun he => h (he ▸ List.mem_cons_self)
      rw [List.cons_append, splitLine_letter _ _ hne hc, splitLine_letter _ _ hne hc, ih]

theorem readLine_comment (comment t : List Char) (h : ';' ∉ t) :
    readLine (t ++ ' ' :: ';' :: comment) = readLine t := by
  unfold readLine
  rw [splitLine_comment comment t h]

theorem hexDigit_ne : ∀ n : BitVec 4, hexDigit n ≠ ';' ∧ hexDigit n ≠ ' ' := by decide

theorem hexValue_hexDigit : ∀ n : BitVec 4, hexValue (hexDigit n) = some n := by decide

theorem textByte_byteText (b : Byte) : textByte (byteText b) = some b := by
  have hjoin : b.extractLsb' 4 4 ++ b.extractLsb' 0 4 = b :=
    (BitVec.extractLsb'_append_extractLsb'_eq_extractLsb' rfl).trans BitVec.extractLsb'_eq_self
  rw [byteText, textByte, hexValue_hexDigit, hexValue_hexDigit]
  exact congrArg some hjoin

theorem splitLine_transmit (b : Byte) :
    splitLine [] (wordTransmit ++ [' '] ++ byteText b) = [wordTransmit, byteText b] := by
  have hword : splitLine [] (wordTransmit ++ [' '] ++ byteText b)
      = wordTransmit :: splitLine ['x', '0'] [hexDigit (b.extractLsb' 4 4), hexDigit (b.extractLsb' 0 4)] := rfl
  obtain ⟨hc, hs⟩ := hexDigit_ne (b.extractLsb' 4 4)
  obtain ⟨lc, ls⟩ := hexDigit_ne (b.extractLsb' 0 4)
  rw [hword, splitLine_letter _ _ hc hs, splitLine_letter _ _ lc ls]
  rfl

theorem readLine_transmit (b : Byte) :
    readLine (wordTransmit ++ [' '] ++ byteText b) = some (.transmit b) := by
  unfold readLine
  rw [splitLine_transmit]
  exact congrArg (Option.map Instr.transmit) (textByte_byteText b)

theorem text_isSome (i : Instr) : i.text.isSome = i.wellFormed := by
  cases i with
  | receive rd => revert rd; decide
  | _ => rfl

theorem readLine_text {i : Instr} {t : List Char} (h : i.text = some t) : readLine t = some i := by
  cases i with
  | transmit b => exact Option.some.inj h ▸ readLine_transmit b
  | receive rd =>
    have hall : ∀ rd : BitVec 2, ∀ t ∈ (Instr.receive rd).text, readLine t = some (.receive rd) := by decide
    exact hall rd t h
  | _ => exact Option.some.inj h ▸ by decide

theorem semicolon_notMem_text {i : Instr} {t : List Char} (h : i.text = some t) : ';' ∉ t := by
  cases i with
  | transmit b =>
    obtain ⟨hc, -⟩ := hexDigit_ne (b.extractLsb' 4 4)
    obtain ⟨lc, -⟩ := hexDigit_ne (b.extractLsb' 0 4)
    cases h
    simp [wordTransmit, byteText, hc.symm, lc.symm]
  | receive rd =>
    have hall : ∀ rd : BitVec 2, ∀ t ∈ (Instr.receive rd).text, ';' ∉ t := by decide
    exact hall rd t h
  | _ => exact Option.some.inj h ▸ by decide

end Sys2Proof

namespace Sys2Proof.Machine

variable {s t : State} {ch : Byte}

theorem zext10_eq_append (b : Byte) : zext10 b = 0#2 ++ b := BitVec.setWidth_eq_append (by decide)

/-! ### `RECEIVE` (R51, R63) -/

theorem exec_receive {rd : BitVec 2} (hrd : rd ≠ 1#2) (s : State) :
    exec (.receive rd) s = (receiveByte rd s).asOperation s := by
  simp only [exec, execReceive, if_neg hrd]

theorem returnByte_eq (rd : BitVec 2) (v : Byte) (s : State) : s.returnByte rd v = { s with
    rxFresh := false
    b2 := if rd = 2#2 then some v else s.b2
    b3 := if rd = 3#2 then some v else s.b3
    trace := s.trace ++ [.rx v] } := by
  unfold State.returnByte State.latch
  by_cases h2 : rd = 2#2
  · simp [h2, State.emit]
  · by_cases h3 : rd = 3#2 <;> simp [h2, h3, State.emit]

/-! ### The operations of a frame, from the host or from a `CONVERT` (R57, R81)

`FRAME` and `CONVERT` do the same things to the block; they differ in what stands at the command port, in `SEQ` and
in the responses. A frame is followed once, along a path of such ports. -/

/-- Where the block takes its next operation from, and what it has answered. -/
structure Port where
  /-- The sub-step of the `CONVERT` in progress, 0 if there is none. -/
  seq : BitVec 4
  /-- The words at the command port. -/
  hostOps : List Cmd
  /-- The responses given. -/
  responses : List (Option Sample)

/-- `s` at the port `p`. -/
@[simps] def State.withPort (p : Port) (s : State) : State :=
  { s with seq := p.seq, hostOps := p.hostOps, responses := p.responses }

/-- At the port `p`, with no byte in flight, a step carries out `act` if it can be, with the response `v`, and comes
to the port `q`. -/
def Takes (ch : Byte) (p : Port) (act : State → Attempt) (v : Option Sample) (q : Port) : Prop :=
  ∀ s t : State, s.busy = false → s.channelByte = ch → act (s.withPort p) = .done v (t.withPort p) →
    step (s.withPort p) = .next (t.withPort q)

/-- A transmit and a receive, with a port between them at which SEQ holds. -/
def TakesXfer (ch : Byte) (p : Port) (b : Byte) (rd : BitVec 2) (r : Byte) (q : Port) : Prop :=
  ∃ m : Port, Takes ch p (transmitByte b) none m ∧ (∀ s : State, SeqHolds (s.withPort m)) ∧
    Takes ch m (receiveByte rd) (some (zext10 r)) q

/-- The nine operations of a frame. -/
def TakesFrame (ch r1 r2 r3 : Byte) (p q : Port) : Prop :=
  ∃ p1 p2 p3 p4 p5 : Port, Takes ch p assertSelect none p1 ∧ TakesXfer ch p1 startByte 0#2 r1 p2 ∧
    TakesXfer ch p2 ch 2#2 r2 p3 ∧ TakesXfer ch p3 fillerByte 3#2 r3 p4 ∧
    Takes ch p4 deassertSelect none p5 ∧ Takes ch p5 assembleResult (some (assembleBytes r2 r3)) q

section Host

variable {ws : List Cmd} {vs : List (Option Sample)} {v : Option Sample} {act : State → Attempt}

/-- A word at the command port, with no byte in flight and no `CONVERT` in progress, is carried out. -/
theorem step_of_encoded {i : Instr} (hi : i.wellFormed = true) (hb : s.busy = false) (hq : s.seq = 0#4)
    (hc : s.command = some (encode i)) : step s = exec i s := by
  rw [step_of_operation (engineMoves_of_quiet hb) hq hc (decode_encode hi), passTurn_of_quiet hb]

theorem takes_operation {i : Instr} (hi : i.wellFormed = true) (hact : ∀ s, exec i s = (act s).asOperation s) :
    Takes ch ⟨0#4, encode i :: ws, vs⟩ act v ⟨0#4, ws, vs ++ [v]⟩ := by
  intro s t hb _ hdone
  have hstep : step (s.withPort ⟨0#4, encode i :: ws, vs⟩) = exec i (s.withPort ⟨0#4, encode i :: ws, vs⟩) :=
    step_of_encoded hi hb rfl rfl
  rw [hstep, hact, hdone]
  rfl

theorem takesXfer_operations {b r : Byte} {rd : BitVec 2} (hrd : rd ≠ 1#2) :
    TakesXfer ch ⟨0#4, encode (.transmit b) :: encode (.receive rd) :: ws, vs⟩ b rd r
      ⟨0#4, ws, vs ++ [none] ++ [some (zext10 r)]⟩ := by
  have hwf : (Instr.receive rd).wellFormed = true := bne_iff_ne.2 hrd
  have hhold : ∀ s : State, SeqHolds (s.withPort ⟨0#4, encode (.receive rd) :: ws, vs ++ [none]⟩) :=
    fun _ => .inl ⟨rfl, rd, hrd, congrArg some (decode_encode hwf)⟩
  exact ⟨_, takes_operation rfl fun _ => rfl, hhold, takes_operation hwf (exec_receive hrd)⟩

theorem takesFrame_frameWords (ch r1 r2 r3 : Byte) (ws : List Cmd) (vs : List (Option Sample)) :
    TakesFrame ch r1 r2 r3 ⟨0#4, frameWords ch ++ ws, vs⟩
      ⟨0#4, ws, vs ++ [none] ++ [none] ++ [some (zext10 r1)] ++ [none] ++ [some (zext10 r2)] ++ [none]
        ++ [some (zext10 r3)] ++ [none] ++ [some (assembleBytes r2 r3)]⟩ :=
  ⟨_, _, _, _, _, takes_operation rfl fun _ => rfl, takesXfer_operations (by decide),
    takesXfer_operations (by decide), takesXfer_operations (by decide), takes_operation rfl fun _ => rfl,
    takes_operation (i := .assemble) rfl fun _ => rfl⟩

end Host

section SubSteps

variable {ws : List Cmd} {vs : List (Option Sample)} {v : Option Sample} {act : State → Attempt} {k : BitVec 4}

theorem step_of_convertAction {a : Attempt} (hb : s.busy = false) (hq : s.seq ≠ 0#4)
    (ha : convertAction s.seq s = some a) : step s = a.asSubStep s := by
  rw [step_of_subStep (engineMoves_of_quiet hb) hq, passTurn_of_quiet hb, convertStep, ha]

theorem takes_subStep (hk : k ≠ 0#4) (hk9 : k ≠ 9#4)
    (hact : ∀ s, s.channelByte = ch → convertAction k s = some (act s)) :
    Takes ch ⟨k, ws, vs⟩ act v ⟨k + 1#4, ws, vs⟩ := by
  intro s t hb hch hdone
  have hstep : step (s.withPort ⟨k, ws, vs⟩)
      = (act (s.withPort ⟨k, ws, vs⟩)).asSubStep (s.withPort ⟨k, ws, vs⟩) :=
    step_of_convertAction hb hk (hact _ hch)
  rw [hstep, hdone]
  exact if_neg hk9

theorem takes_lastSubStep : Takes ch ⟨9#4, ws, vs⟩ assembleResult v ⟨0#4, ws.tail, vs ++ [v]⟩ := by
  intro s t hb _ hdone
  have hstep : step (s.withPort ⟨9#4, ws, vs⟩)
      = (assembleResult (s.withPort ⟨9#4, ws, vs⟩)).asSubStep (s.withPort ⟨9#4, ws, vs⟩) :=
    step_of_convertAction hb (by decide : (9#4 : BitVec 4) ≠ 0#4) rfl
  rw [hstep, hdone]
  rfl

theorem takesXfer_subSteps {b r : Byte} {rd : BitVec 2} (hk : k = 2#4 ∨ k = 4#4 ∨ k = 6#4)
    (hsend : ∀ s, s.channelByte = ch → convertAction k s = some (transmitByte b s))
    (hreceive : ∀ s, convertAction (k + 1#4) s = some (receiveByte rd s)) :
    TakesXfer ch ⟨k, ws, vs⟩ b rd r ⟨k + 1#4 + 1#4, ws, vs⟩ := by
  have hnext : k + 1#4 = 3#4 ∨ k + 1#4 = 5#4 ∨ k + 1#4 = 7#4 := by bv_omega
  have hhold : ∀ s : State, SeqHolds (s.withPort ⟨k + 1#4, ws, vs⟩) := fun _ => .inr hnext
  exact ⟨_, takes_subStep (by bv_omega) (by bv_omega) hsend, hhold,
    takes_subStep (by bv_omega) (by bv_omega) fun s _ => hreceive s⟩

theorem takesFrame_subSteps (ch r1 r2 r3 : Byte) (ws : List Cmd) (vs : List (Option Sample)) :
    TakesFrame ch r1 r2 r3 ⟨1#4, ws, vs⟩ ⟨0#4, ws.tail, vs ++ [some (assembleBytes r2 r3)]⟩ :=
  ⟨⟨2#4, ws, vs⟩, ⟨4#4, ws, vs⟩, ⟨6#4, ws, vs⟩, ⟨8#4, ws, vs⟩, ⟨9#4, ws, vs⟩,
    takes_subStep (by decide) (by decide) fun _ _ => rfl,
    takesXfer_subSteps (by decide) (fun _ _ => rfl) fun _ => rfl,
    takesXfer_subSteps (by decide) (by rintro s rfl; rfl) fun _ => rfl,
    takesXfer_subSteps (by decide) (fun _ _ => rfl) fun _ => rfl,
    takes_subStep (by decide) (by decide) fun _ _ => rfl,
    takes_lastSubStep⟩

end SubSteps

/-! ### One phase of a frame -/

/-- The shift path is free, and the choices and answers to come begin with those of one byte: `ts` completes it and
`r` comes in. -/
structure ByteReady (r : Byte) (ms : List Level) (ts turns : List Agent) (s : State) : Prop where
  quiet : s.busy = false
  notFresh : s.rxFresh = false
  clockLow : s.sclk = false
  order : byteTurns ts = true
  turnIn : s.turnIn = ts ++ turns
  misoIn : s.misoIn = bitsOnWire r ++ ms

/-- `s` after `b` was accepted and went out and `r` came in, in `n` choices of agent. -/
def afterTransmit (b r : Byte) (ms : List Level) (n : Nat) (turns : List Agent) (s : State) : State :=
  afterByte b r ms { s.emit (.tx b) with turnIn := turns, turnCount := s.turnCount + n }

/-- `s` after a transmit of `b` and the receive that returns `r`. -/
def afterXfer (b r : Byte) (rd : BitVec 2) (ms : List Level) (n : Nat) (turns : List Agent) (s : State) : State :=
  (afterTransmit b r ms n turns s).returnByte rd r

theorem returnByte_withPort (rd : BitVec 2) (v : Byte) (s : State) (p : Port) :
    (s.withPort p).returnByte rd v = (s.returnByte rd v).withPort p := by
  rw [returnByte_eq, returnByte_eq]
  rfl

section ByteReady

variable {r : Byte} {ms : List Level} {ts turns : List Agent}

theorem ByteReady.withPort (h : ByteReady r ms ts turns s) (p : Port) : ByteReady r ms ts turns (s.withPort p) where
  quiet := h.quiet
  notFresh := h.notFresh
  clockLow := h.clockLow
  order := h.order
  turnIn := h.turnIn
  misoIn := h.misoIn

theorem ByteReady.selectLow (h : ByteReady r ms ts turns s) : ByteReady r ms ts turns s.selectLow where
  quiet := h.quiet
  notFresh := h.notFresh
  clockLow := h.clockLow
  order := h.order
  turnIn := h.turnIn
  misoIn := h.misoIn

end ByteReady

theorem run_trans {j k : Nat} {u : Outcome} (h : run j s = .next t) (h' : run k t = u) : run (j + k) s = u :=
  (run_add h).trans h'

theorem run_one (h : step s = .next t) : run 1 s = .next t := run_succ_of_next h

theorem run_acceptByte {b r : Byte} {ms : List Level} {ts turns : List Agent} (h : ByteReady r ms ts turns s)
    (hold : SeqHolds s) : run ts.length (s.acceptByte b) = .next (afterTransmit b r ms ts.length turns s) := by
  obtain ⟨hcount, hlast⟩ := Bool.and_eq_true_iff.1 h.order
  rw [acceptByte_eq_midByte b r ms s h.notFresh h.clockLow h.misoIn]
  exact run_midByte b r ms turns ts 0 (s.emit (.tx b)) hold (Nat.zero_le _) (beq_iff_eq.1 hcount)
    (beq_iff_eq.1 hlast) h.turnIn

theorem run_xfer {b r : Byte} {rd : BitVec 2} {ms : List Level} {ts turns : List Agent} {p q : Port}
    (hx : TakesXfer ch p b rd r q) (h : ByteReady r ms ts turns s) (hch : s.channelByte = ch) :
    run (2 + ts.length) (s.withPort p) = .next ((afterXfer b r rd ms ts.length turns s).withPort q) := by
  obtain ⟨m, hsend, hhold, hreceive⟩ := hx
  have haccept : step (s.withPort p) = .next ((s.withPort m).acceptByte b) :=
    hsend s (s.acceptByte b) h.quiet hch
      (transmitByte_done.2 ⟨bytePending_eq_false.2 ⟨h.quiet, h.notFresh⟩, rfl, rfl⟩)
  have hreturn : step ((afterTransmit b r ms ts.length turns s).withPort m)
      = .next ((afterXfer b r rd ms ts.length turns s).withPort q) :=
    hreceive _ _ rfl hch (receiveByte_done.2 ⟨rfl, rfl, rfl, (returnByte_withPort ..).symm⟩)
  rw [show 2 + ts.length = 1 + (ts.length + 1) by omega]
  exact run_trans (run_one haccept) (run_trans (run_acceptByte (h.withPort m) (hhold s)) (run_one hreturn))

/-! ### A whole frame -/

theorem byteReady_afterXfer {b r r' : Byte} {rd : BitVec 2} {ms : List Level} {n : Nat} {ts turns : List Agent}
    (hts : byteTurns ts = true) :
    ByteReady r' ms ts turns (afterXfer b r rd (bitsOnWire r' ++ ms) n (ts ++ turns) s) := by
  constructor <;> simp [afterXfer, afterTransmit, afterByte, hts]

@[simp] theorem afterXfer_channelByte (b r : Byte) (rd : BitVec 2) (ms : List Level) (n : Nat) (turns : List Agent) :
    (afterXfer b r rd ms n turns s).channelByte = s.channelByte := by
  simp [afterXfer, afterTransmit, afterByte]

/-- `s` after a frame answered by `r1`, `r2` and `r3`, in `n` choices of agent: what R83 lists, but for `SEQ`, the
command port and the responses. -/
def afterFrame (r1 r2 r3 : Byte) (ms : List Level) (n : Nat) (turns : List Agent) (s : State) : State :=
  { s with
    csN := true
    sclk := false
    mosi := false
    busy := false
    rxFresh := false
    txdr := some 0x00#8
    rxdr := some r3
    tsr := some 0x00#8
    rsr := some r3
    bitcnt := 8#4
    b2 := some r2
    b3 := some r3
    result := some (assembleBytes r2 r3)
    misoIn := ms
    drawCount := s.drawCount + 24
    turnIn := turns
    turnCount := s.turnCount + n
    trace := s.trace ++ frameTrace s.channelByte r1 r2 r3 }

/-- `s` selected, after the three phases of a frame. -/
def afterPhases (r1 r2 r3 : Byte) (ms : List Level) (ts1 ts2 ts3 turns : List Agent) (s : State) : State :=
  afterXfer fillerByte r3 3#2 ms ts3.length turns
    (afterXfer s.channelByte r2 2#2 (bitsOnWire r3 ++ ms) ts2.length (ts3 ++ turns)
      (afterXfer startByte r1 0#2 (bitsOnWire r2 ++ (bitsOnWire r3 ++ ms)) ts1.length (ts2 ++ (ts3 ++ turns))
        s.selectLow))

section Frame

variable {r1 r2 r3 : Byte} {ms : List Level} {ts1 ts2 ts3 turns : List Agent} {p q : Port}

theorem afterPhases_assembled :
    State.emit (.result (assembleBytes r2 r3))
        { (afterPhases r1 r2 r3 ms ts1 ts2 ts3 turns s).selectHigh with result := some (assembleBytes r2 r3) }
      = afterFrame r1 r2 r3 ms (ts1.length + ts2.length + ts3.length) turns s := by
  simp [afterPhases, afterXfer, afterTransmit, returnByte_eq, afterByte, afterFrame, State.emit, State.selectHigh,
    State.selectLow, frameTrace, phaseTrace, fillerByte, Nat.add_assoc]

theorem run_deselect_assemble {m : Port} (hdeselect : Takes ch p deassertSelect none m)
    (hassemble : Takes ch m assembleResult (some (assembleBytes r2 r3)) q) (hb : s.busy = false)
    (hch : s.channelByte = ch) (hb2 : s.b2 = some r2) (hb3 : s.b3 = some r3) :
    run 2 (s.withPort p) = .next (State.withPort q (State.emit (.result (assembleBytes r2 r3))
      { s.selectHigh with result := some (assembleBytes r2 r3) })) := by
  have hhigh : step (s.withPort p) = .next (s.selectHigh.withPort m) := hdeselect s _ hb hch rfl
  exact (run_succ_of_next hhigh).trans (run_one (hassemble s.selectHigh _ hb hch
    (assembleResult_done.2 ⟨r2, r3, hb2, hb3, rfl, rfl⟩)))

/-- A frame along any path of ports: the end does not depend on the path. -/
theorem run_frame (hp : TakesFrame s.channelByte r1 r2 r3 p q)
    (h : ByteReady r1 (bitsOnWire r2 ++ (bitsOnWire r3 ++ ms)) ts1 (ts2 ++ (ts3 ++ turns)) s)
    (hts2 : byteTurns ts2 = true) (hts3 : byteTurns ts3 = true) :
    run (9 + ts1.length + ts2.length + ts3.length) (s.withPort p)
      = .next ((afterFrame r1 r2 r3 ms (ts1.length + ts2.length + ts3.length) turns s).withPort q) := by
  obtain ⟨p1, p2, p3, p4, p5, hselect, hstart, hchannel, hfiller, hdeselect, hassemble⟩ := hp
  have hselected : run 1 (s.withPort p) = .next (s.selectLow.withPort p1) :=
    run_one (hselect s s.selectLow h.quiet rfl rfl)
  have hphases : run ((2 + ts1.length) + ((2 + ts2.length) + (2 + ts3.length))) (s.selectLow.withPort p1)
      = .next ((afterPhases r1 r2 r3 ms ts1 ts2 ts3 turns s).withPort p4) :=
    run_trans (run_xfer hstart h.selectLow rfl) (run_trans (run_xfer hchannel (byteReady_afterXfer hts2) (by simp))
      (run_xfer hfiller (byteReady_afterXfer hts3) (by simp)))
  have hend := run_deselect_assemble (s := afterPhases r1 r2 r3 ms ts1 ts2 ts3 turns s) hdeselect hassemble
    (by simp [afterPhases, afterXfer, afterTransmit, afterByte]) (by simp [afterPhases])
    (by simp [afterPhases, afterXfer, afterTransmit, afterByte]) (by simp [afterPhases, afterXfer])
  rw [afterPhases_assembled] at hend
  have hcount : 9 + ts1.length + ts2.length + ts3.length
      = 1 + (((2 + ts1.length) + ((2 + ts2.length) + (2 + ts3.length))) + 2) := by omega
  rw [hcount]
  exact run_trans hselected (run_trans hphases hend)

end Frame

/-- A `CONVERT` at the port of an idle block is accepted, and its sub-steps are a frame. -/
theorem step_of_accepted {ws : List Cmd} {vs : List (Option Sample)} (hidle : s.idle = true) :
    step (s.withPort ⟨0#4, encode .convert :: ws, vs⟩)
      = .next (s.withPort ⟨1#4, encode .convert :: ws, vs⟩) := by
  have hb : s.busy = false := (bytePending_eq_false.1 (idle_iff.1 hidle).2).1
  have hstep : step (s.withPort ⟨0#4, encode .convert :: ws, vs⟩)
      = exec .convert (s.withPort ⟨0#4, encode .convert :: ws, vs⟩) := step_of_encoded rfl hb rfl rfl
  exact hstep.trans (if_pos hidle)

end Sys2Proof.Machine

namespace Sys2Proof

open Sys2Proof.Machine

/-- Settles O1: each row of the decoder selects the words its operation is encoded in, and the encoding of a
well-formed operation meets its own row first. -/
theorem decodeAcceptsExactlyTheEncodings : Obligations.DecodeAcceptsExactlyTheEncodings :=
  fun _ _ => decode_eq_op_iff

/-- Settles O2: a word is reserved when its fields are not those of an operation. -/
theorem reservedWordsRefused : Obligations.ReservedWordsRefused := by
  refine ⟨fun w => ?_, fun _ _ => step_of_reserved⟩
  obtain hreserved | h | h | h | h | h | h := opcode_cases (opField w)
  · exact iff_of_true (decode_eq_reserved_of_opcode hreserved) (hreserved.imp_right .inl)
  all_goals
    rw [decode_eq_reserved_iff, exists_decode_eq_op_iff]
    simp [h, imp_iff_not_or]

/-- Settles O3: the words of a kind are counted as its operations; the reserved words are the rest. -/
theorem commandWordCounts : Obligations.CommandWordCounts := by
  have hsum := wordCount_sum
  rw [wordCount_transmit, wordCount_receive, wordCount_other] at hsum
  exact ⟨wordCount_transmit, wordCount_receive, wordCount_other, by omega⟩

/-- Settles O4: the fields of a word are its digits, and the encoder fills each with the operation's own. -/
theorem commandWordLayout : Obligations.CommandWordLayout := by
  refine ⟨toNat_eq_fields, fun i => ⟨opField_encode i, zField_encode i⟩, ?_, ?_, ?_, ?_, ?_⟩
  · exact fun i h => (rdField_encode i).trans (rdOperand_eq_zero h)
  · exact fun i h => (imm8Field_encode i).trans (imm8Operand_eq_zero h)
  · intro w i h
    obtain ⟨-, rfl⟩ := eq_encode_of_decode h
    exact ⟨zField_encode i, fun h => (rdField_encode i).trans (rdOperand_eq_zero h),
      fun h => (imm8Field_encode i).trans (imm8Operand_eq_zero h)⟩
  · exact fun rd => rdField_encode (.receive rd)
  · exact fun b => imm8Field_encode (.transmit b)

/-- Settles O5: by the words each row selects, and by the fields for the operation codes that no row has. -/
theorem rowsSelectOperations : Obligations.RowsSelectOperations := by
  refine ⟨fun w => ?_, rfl, rfl, fun _ => rfl, fun _ => rfl, rfl, rfl⟩
  have hrow : ∀ row : Cmd × Cmd, selectsRow w row = true ↔ w &&& row.2 = row.1 := fun _ => beq_iff_eq
  simp only [decode_eq_op_iff, Instr.wellFormed, true_and]
  refine ⟨?_, ?_, fun b => ?_, fun rd => ?_, ?_, ?_, decode_eq_reserved_of_opcode, selectedRows_length_le_one w⟩
  · exact selectsRow_select.symm.trans (hrow rowSelect)
  · exact selectsRow_deselect.symm.trans (hrow rowDeselect)
  · exact eq_encode_transmit_iff.trans (and_congr_left' (hrow rowTransmit))
  · rw [eq_encode_receive_iff]
    exact and_comm.trans (and_assoc.trans (and_congr (hrow rowReceive) (and_congr_right' bne_iff_ne)))
  · exact selectsRow_assemble.symm.trans (hrow rowAssemble)
  · exact selectsRow_convert.symm.trans (hrow rowConvert)

/-- Settles O6: the printed line reads back word by word, and it holds no `;`, so a comment does not change it. -/
theorem textReadsBack : Obligations.TextReadsBack := by
  refine fun i => ⟨text_isSome i, fun t ht => ⟨readLine_text ht, fun comment => ?_⟩⟩
  rw [readLine_comment comment t (semicolon_notMem_text ht), readLine_text ht]

/-- Settles O29: the nine words and the nine sub-steps are two paths of ports along which the block does the same. -/
theorem frameRunsLikeConvert : Obligations.FrameRunsLikeConvert := by
  intro s r1 r2 r3 ts1 ts2 ts3 turns ms ws hcs hclock hb hf hq hts1 hts2 hts3 hturns hmiso
  have hidle : s.idle = true := by simp [State.idle, State.bytePending, hcs, hb, hf]
  have hready : ByteReady r1 (bitsOnWire r2 ++ (bitsOnWire r3 ++ ms)) ts1 (ts2 ++ (ts3 ++ turns)) s :=
    ⟨hb, hf, hclock, hts1, by simpa using hturns, by simpa using hmiso⟩
  have hport : ∀ hostOps, { s with hostOps := hostOps } = s.withPort ⟨0#4, hostOps, s.responses⟩ := by
    simp [State.withPort, ← hq]
  have hsteps : 10 + ts1.length + ts2.length + ts3.length = 9 + ts1.length + ts2.length + ts3.length + 1 := by omega
  have hconvert := (run_succ_of_next (step_of_accepted hidle)).trans
    (run_frame (takesFrame_subSteps s.channelByte r1 r2 r3 (encode .convert :: ws) s.responses) hready hts2 hts3)
  have hwords := run_frame (takesFrame_frameWords s.channelByte r1 r2 r3 ws s.responses) hready hts2 hts3
  rw [hsteps, hport, hport]
  exact ⟨_, hconvert, hwords.trans (by simp [State.withPort, zext10_eq_append])⟩

/-- Settles O7, word by word. -/
theorem writtenOutWordsDecode : Obligations.WrittenOutWordsDecode := by
  unfold Obligations.WrittenOutWordsDecode
  decide

/-- Settles O14: the three cases of the receive, refused, held and done. -/
theorem receiveReturnsByte : Obligations.ReceiveReturnsByte := by
  intro s rd hrd
  refine ⟨fun hb hf => exec_receive_of_nothingPending hrd (bytePending_eq_false.2 ⟨hb, hf⟩), ?_, ?_⟩
  · intro hb
    rw [exec_receive hrd, receiveByte_hold.2 hb]
    rfl
  · intro hb hf
    refine ⟨s.rxdrBits, fun _ => State.rxdrBits_of_some, ?_⟩
    rw [exec_receive hrd, receiveByte_done.2 ⟨hb, hf, rfl, rfl⟩, ← zext10_eq_append, returnByte_eq]
    rfl

end Sys2Proof
end

section
/-! PROOFS of the statements of spec/40_serial_transport.md: the byte primitives `TRANSMIT` and `RECEIVE` (R62, R63),
the edges of ENG (R64 to R67), one byte and the frame on the wire (R69, R83), the mode 0 invariants and the count of
edges (R71), and how long a `RECEIVE` waits (R72, R73). -/

namespace Sys2Proof.Machine

variable {s t u : State}

/-! ### The mode 0 invariants (R71 items 1, 5, 6, 7) -/

/-- The invariant speaks of the clock, `MOSI`, the transmit half of the shift path and the flags alone. -/
theorem WireInv.congr (h : WireInv s) (hbusy : t.busy = s.busy) (hsclk : t.sclk = s.sclk)
    (hfresh : t.rxFresh = true → s.rxFresh = true) (hmosi : t.mosi = s.mosi) (htxdr : t.txdr = s.txdr)
    (htsr : t.tsr = s.tsr) (hbitcnt : t.bitcnt = s.bitcnt) : WireInv t where
  idleClock := by simpa [hbusy, hsclk] using h.idleClock
  mosiIsTopBit := by simpa [hbusy, htsr, hmosi] using h.mosiIsTopBit
  noFreshInFlight := fun ⟨hb, hf⟩ => h.noFreshInFlight ⟨hbusy ▸ hb, hfresh hf⟩
  bitcntRange := by simpa [hbitcnt] using h.bitcntRange
  bitcntInFlight := by simpa [hbusy, hbitcnt] using h.bitcntInFlight
  txdrInFlight := by simpa [hbusy, htxdr] using h.txdrInFlight
  bitcntQuiet := by simpa [hbusy, hbitcnt, htxdr] using h.bitcntQuiet

theorem WireInv.passTurn (h : WireInv s) : WireInv s.passTurn := by
  apply h.congr <;> simp

/-- A rising edge moves the clock of a byte in flight, and no item asks for the clock in flight. -/
theorem WireInv.engineRise (h : WireInv s) (hb : s.busy = true) : WireInv (engineRise s) where
  idleClock := by simp [hb]
  mosiIsTopBit := h.mosiIsTopBit
  noFreshInFlight := h.noFreshInFlight
  bitcntRange := h.bitcntRange
  bitcntInFlight := h.bitcntInFlight
  txdrInFlight := h.txdrInFlight
  bitcntQuiet := h.bitcntQuiet

theorem WireInv.engineFall (h : WireInv s) (hb : s.busy = true) (hn : s.bitcnt < 7#4) :
    WireInv (engineFall s) where
  idleClock _ := rfl
  mosiIsTopBit _ := rfl
  noFreshInFlight := h.noFreshInFlight
  bitcntRange := by simp only [engineFall_bitcnt]; bv_omega
  bitcntInFlight _ := by simp only [engineFall_bitcnt]; bv_omega
  txdrInFlight := h.txdrInFlight
  bitcntQuiet := by simp [hb]

theorem WireInv.engineLast (h : WireInv s) (hb : s.busy = true) : WireInv (engineLast s) where
  idleClock _ := rfl
  mosiIsTopBit := by simp
  noFreshInFlight := by simp
  bitcntRange := by simp
  bitcntInFlight := by simp
  txdrInFlight := by simp
  bitcntQuiet _ := by
    obtain ⟨b, hx⟩ := Option.isSome_iff_exists.1 (h.txdrInFlight hb)
    simp [hx]

theorem WireInv.acceptByte (b : Byte) (hp : s.bytePending = false) : WireInv (s.acceptByte b) where
  idleClock := by simp
  mosiIsTopBit _ := rfl
  noFreshInFlight := by simp [(bytePending_eq_false.1 hp).2]
  bitcntRange := by simp
  bitcntInFlight := by simp
  txdrInFlight _ := rfl
  bitcntQuiet := by simp

theorem Effect.wireInv (h : WireInv s) (he : Effect s u) : WireInv u := by
  cases he with
  | none => exact h
  | rise _ hb => exact h.engineRise hb
  | fall _ hb _ hn => exact h.engineFall hb hn
  | last _ hb => exact h.engineLast hb
  | select => exact h.congr rfl rfl id rfl rfl rfl rfl
  | deselect => exact h.congr rfl rfl id rfl rfl rfl rfl
  | transmit b hp => exact .acceptByte b hp
  | receive rd => apply h.congr <;> simp
  | assemble x y => exact h.congr rfl rfl id rfl rfl rfl rfl

theorem step_wireInv (h : WireInv s) (hs : step s = .next t) : WireInv t := by
  obtain ⟨u, c, he, rfl⟩ := step_effect hs
  exact (he.wireInv h).congr rfl rfl id rfl rfl rfl rfl

/-! ### The count of edges (R69, R71 item 2) -/

/-- The invariant speaks of the trace, the clock, `BUSY` and `BITCNT` alone. -/
theorem EdgeInv.congr (h : EdgeInv s) (htx : t.trace.countP Event.isTx = s.trace.countP Event.isTx)
    (hrise : t.trace.countP Event.isRise = s.trace.countP Event.isRise)
    (hfall : t.trace.countP Event.isFall = s.trace.countP Event.isFall)
    (hbusy : t.busy = s.busy) (hsclk : t.sclk = s.sclk) (hbitcnt : t.bitcnt = s.bitcnt) : EdgeInv t where
  falls := by simpa [htx, hfall, hbusy, hbitcnt] using h.falls
  rises := by simpa [hrise, hfall, hsclk] using h.rises

/-- An event that is neither a byte accepted nor an edge does not count. -/
theorem EdgeInv.other {e : Event} (h : EdgeInv s) (htrace : t.trace = s.trace ++ [e])
    (htx : e.isTx = false) (hrise : e.isRise = false) (hfall : e.isFall = false)
    (hbusy : t.busy = s.busy) (hsclk : t.sclk = s.sclk) (hbitcnt : t.bitcnt = s.bitcnt) : EdgeInv t := by
  apply h.congr _ _ _ hbusy hsclk hbitcnt <;> simp [htrace, htx, hrise, hfall]

theorem EdgeInv.engineRise (h : EdgeInv s) (hb : s.busy = true) (hc : s.sclk = false) :
    EdgeInv (engineRise s) where
  falls := by simpa [Event.isFall, Event.isTx, hb] using h.falls
  rises := by simpa [Event.isFall, Event.isRise, hc] using h.rises

/-- A falling edge comes off the edges still to come. -/
theorem EdgeInv.engineFall (h : EdgeInv s) (hb : s.busy = true) (hc : s.sclk = true) (hn : s.bitcnt < 7#4) :
    EdgeInv (engineFall s) where
  falls := by
    have hleft : 1 + (8 - (s.bitcnt + 1#4).toNat) = 8 - s.bitcnt.toNat := by bv_omega
    have hfalls := h.falls
    simp [Event.isFall, Event.isTx, hb] at hfalls ⊢
    omega
  rises := by simpa [Event.isFall, Event.isRise, hc] using h.rises

theorem EdgeInv.engineLast (h : EdgeInv s) (hb : s.busy = true) (hc : s.sclk = true) (hn : s.bitcnt = 7#4) :
    EdgeInv (engineLast s) where
  falls := by simpa [Event.isFall, Event.isTx, hb, hn] using h.falls
  rises := by simpa [Event.isFall, Event.isRise, hc] using h.rises

/-- A byte accepted brings its eight falling edges, with no other byte in flight. -/
theorem EdgeInv.acceptByte (b : Byte) (h : EdgeInv s) (hb : s.busy = false) : EdgeInv (s.acceptByte b) where
  falls := by
    have hfalls := h.falls
    simp [Event.isFall, Event.isTx, hb] at hfalls ⊢
    omega
  rises := by simpa [Event.isFall, Event.isRise] using h.rises

theorem Effect.edgeInv (h : EdgeInv s) (he : Effect s u) : EdgeInv u := by
  cases he with
  | none => exact h
  | rise _ hb hc => exact h.engineRise hb hc
  | fall _ hb hc hn => exact h.engineFall hb hc hn
  | last _ hb hc hn => exact h.engineLast hb hc hn
  | select => exact h.other rfl rfl rfl rfl rfl rfl rfl
  | deselect => exact h.other rfl rfl rfl rfl rfl rfl rfl
  | transmit b hp => exact h.acceptByte b (bytePending_eq_false.1 hp).1
  | receive rd => exact h.other (State.returnByte_trace ..) rfl rfl rfl (by simp) (by simp) (by simp)
  | assemble x y => exact h.other rfl rfl rfl rfl rfl rfl rfl

/-! ### The edges of ENG (R64 to R67) -/

theorem topBit_shiftOut (x : Byte) : topBit (shiftOut x) = x.getLsbD 6 := by
  rw [shiftOut_eq, (topBit_shiftLeft x).2.1]
  rfl

theorem engineMoves_iff : s.engineMoves = true ↔ s.busy = true ∧ s.turn = .engine := by
  simp [State.engineMoves]

/-- In flight the mode 0 invariants leave ENG no state without an edge. -/
theorem WireInv.not_still (h : WireInv s) (hb : s.busy = true) :
    ¬ (s.busy = false ∨ (s.sclk = true ∧ 7#4 < s.bitcnt)) := by
  have hn := h.bitcntInFlight hb
  rintro (hquiet | ⟨-, hover⟩)
  · simp [hb] at hquiet
  · bv_omega

theorem EdgeTo.isEdge (hw : WireInv s) (hb : s.busy = true) (h : EdgeTo s t) :
    t.sclk = !s.sclk ∧ ∃ e, t.trace = s.trace ++ [e] ∧ e.isRise = !s.sclk ∧ e.isFall = s.sclk := by
  cases h with
  | rise _ hc => exact ⟨by simp [hc], _, rfl, by simp [hc, Event.isRise], by simp [hc, Event.isFall]⟩
  | fall _ hc => exact ⟨by simp [hc], _, rfl, by simp [hc, Event.isRise], by simp [hc, Event.isFall]⟩
  | last _ hc => exact ⟨by simp [hc], _, rfl, by simp [hc, Event.isRise], by simp [hc, Event.isFall]⟩
  | still h => exact absurd h (hw.not_still hb)

/-- A step that falls on ENG is never refused. -/
theorem step_engine_spec (hm : s.engineMoves = true) : ∃ t, step s = .next t ∧ EdgeTo s.passTurn t := by
  rw [step_of_engine hm]
  exact engineEdge_spec s.passTurn

/-- With no byte in flight only an acceptance touches `RSR`, and no event is an edge. -/
theorem Effect.noEdge (hb : s.busy = false) (he : Effect s u) :
    u.sclk = s.sclk ∧ u.rsr = (if u.busy then some 0x00#8 else s.rsr) ∧ u.rxdr = s.rxdr ∧
    ∃ es, u.trace = s.trace ++ es ∧ ∀ e ∈ es, e.isRise = false ∧ e.isFall = false := by
  cases he with
  | none => exact ⟨rfl, by simp [hb], rfl, [], by simp, by simp⟩
  | rise _ h => simp [hb] at h
  | fall _ h => simp [hb] at h
  | last _ h => simp [hb] at h
  | select => exact ⟨rfl, by simp [hb], rfl, _, rfl, by simp [Event.isRise, Event.isFall]⟩
  | deselect => exact ⟨rfl, by simp [hb], rfl, _, rfl, by simp [Event.isRise, Event.isFall]⟩
  | transmit b => exact ⟨rfl, rfl, rfl, _, rfl, by simp [Event.isRise, Event.isFall]⟩
  | receive rd =>
    exact ⟨by simp, by simp [hb], by simp, _, State.returnByte_trace .., by simp [Event.isRise, Event.isFall]⟩
  | assemble x y => exact ⟨rfl, by simp [hb], rfl, _, rfl, by simp [Event.isRise, Event.isFall]⟩

/-! ### The edges left (R64, R73) -/

theorem edgesLeft_of_quiet (hb : s.busy = false) : s.edgesLeft = 0 := by
  simp [State.edgesLeft, hb]

theorem WireInv.edgesLeft_pos (h : WireInv s) (hb : s.busy = true) : 1 ≤ s.edgesLeft := by
  have hn := h.bitcntInFlight hb
  have hc := Bool.toNat_le s.sclk
  simp only [State.edgesLeft, hb, if_true]
  bv_omega

theorem edgesLeft_le (s : State) : s.edgesLeft ≤ 16 := by
  unfold State.edgesLeft
  split <;> omega

theorem WireInv.quiet_iff_edgesLeft (h : WireInv s) : s.busy = false ↔ s.edgesLeft = 0 := by
  refine ⟨edgesLeft_of_quiet, fun hleft => ?_⟩
  by_contra hb
  have := h.edgesLeft_pos (by simpa using hb)
  omega

@[simp] theorem edgesLeft_passTurn (s : State) : s.passTurn.edgesLeft = s.edgesLeft := by
  simp [State.edgesLeft]

theorem EdgeTo.edgesLeft (hw : WireInv s) (hb : s.busy = true) (h : EdgeTo s t) :
    t.edgesLeft + 1 = s.edgesLeft := by
  have hn := hw.bitcntInFlight hb
  cases h with
  | rise _ hc => simp [State.edgesLeft, hb, hc]; bv_omega
  | fall _ hc hn => simp [State.edgesLeft, hb, hc]; bv_omega
  | last _ hc hn => simp [State.edgesLeft, hb, hc, hn]
  | still h => exact absurd h (hw.not_still hb)

theorem step_blockInv (h : BlockInv s) (hs : step s = .next t) : BlockInv t where
  wire := step_wireInv h.wire hs
  shift := stepKeepsShiftPath s t h.wire h.shift hs
  sequencer := stepKeepsConvertPhase s t h.sequencer hs

/-! ### How long a hold lasts (R72) -/

theorem engineMoves_of_sequencer (h : s.turn = .sequencer) : s.engineMoves = false := by
  simp [State.engineMoves, h]

theorem wellFormed_receive {rd : BitVec 2} (hrd : rd ≠ 1#2) : (Instr.receive rd).wellFormed = true :=
  bne_iff_ne.2 hrd

theorem command_decodes_receive {rd : BitVec 2} (hrd : rd ≠ 1#2) (hc : s.command = some (encode (.receive rd))) :
    s.command.map decode = some (.op (.receive rd)) := by
  rw [hc, Option.map_some, decode_encode (wellFormed_receive hrd)]

/-- SEQ's turns in a hold are used up one by one, and nothing else. -/
theorem run_of_hold {n : Nat} (hb : s.busy = true) (hh : SeqHolds s)
    (hturns : ∀ i, i < n → s.turnAt i = .sequencer) : run n s = .next (nextTurn^[n] s) := by
  induction n generalizing s with
  | zero => rfl
  | succ n ih =>
    have hturn : s.turn = .sequencer := (turnAt_zero s).symm.trans (hturns 0 n.succ_pos)
    have hrest : ∀ i, i < n → (nextTurn s).turnAt i = .sequencer := fun i hi => by
      have hpass : s.passTurn = nextTurn s := passTurn_of_busy hb
      rw [← hpass, ← turnAt_succ hb]
      exact hturns (i + 1) (Nat.succ_lt_succ hi)
    rw [run_succ_of_next (step_of_hold hh hb (engineMoves_of_sequencer hturn)), Function.iterate_succ_apply]
    exact ih hb (seqHolds_nextTurn hh) hrest

/-! ### How long a `RECEIVE` waits (R63, R73) -/

/-- A `RECEIVE` that meets its precondition stands at the command port. -/
structure ReceiveWaits (rd : BitVec 2) (s : State) : Prop where
  inv : BlockInv s
  notConverting : s.seq = 0#4
  legal : rd ≠ 1#2
  port : s.command = some (encode (.receive rd))
  pending : s.bytePending = true

/-- Within `n` steps the operation at the command port returns the byte then in `RXDR`. -/
def ReturnsWithin (n : Nat) (s : State) : Prop :=
  ∃ k t v, k ≤ n ∧ run k s = .next t ∧ t.rxdr = some v ∧ t.hostOps = s.hostOps.tail ∧
    t.responses = s.responses ++ [some (0#2 ++ v)]

theorem ReturnsWithin.mono {m n : Nat} (h : ReturnsWithin m s) (hmn : m ≤ n) : ReturnsWithin n s := by
  obtain ⟨k, t, v, hk, hrest⟩ := h
  exact ⟨k, t, v, hk.trans hmn, hrest⟩

theorem ReturnsWithin.of_step {n : Nat} (hs : step s = .next u) (hops : u.hostOps = s.hostOps)
    (hrsp : u.responses = s.responses) (h : ReturnsWithin n u) : ReturnsWithin (n + 1) s := by
  obtain ⟨k, t, v, hk, hrun, hv, ht, hr⟩ := h
  exact ⟨k + 1, t, v, Nat.succ_le_succ hk, (run_succ_of_next hs).trans hrun, hv, hops ▸ ht, hrsp ▸ hr⟩

section ReceiveWaits

variable {rd : BitVec 2}

/-- With no byte in flight the byte is unread in `RXDR`, and the next step returns it. -/
theorem ReceiveWaits.returnsAtOnce (h : ReceiveWaits rd s) (hb : s.busy = false) : ReturnsWithin 1 s := by
  have hf : s.rxFresh = true := by simpa [State.bytePending, hb] using h.pending
  obtain ⟨v, hv⟩ := Option.isSome_iff_exists.1 (h.inv.shift.freshHolds hf)
  have hdone : receiveByte rd s = .done (some (zext10 v)) (s.returnByte rd v) :=
    receiveByte_done.2 ⟨hb, hf, by simp [hv], by simp [hv]⟩
  have hstep : step s = .next ((s.returnByte rd v).complete (some (zext10 v))) := by
    rw [step_of_encoded (wellFormed_receive h.legal) hb h.notConverting h.port, exec_receive h.legal, hdone]
    rfl
  exact ⟨1, _, v, le_rfl, run_one hstep, by simp [hv], by simp, by simp [zext10_eq_append]⟩

theorem EdgeTo.keepsPortAndTurns (h : EdgeTo s t) : t.hostOps = s.hostOps ∧ t.responses = s.responses ∧
    ∀ n, t.engineTurns n = s.engineTurns n := by
  cases h <;> exact ⟨rfl, rfl, fun _ => rfl⟩

theorem EdgeTo.bytePending (h : EdgeTo s t) : t.bytePending = s.bytePending := by
  cases h with
  | rise => rfl
  | fall => rfl
  | last hb => simp [State.bytePending, hb]
  | still => rfl

/-- With a byte in flight the next step leaves the `RECEIVE` waiting; if it is ENG's, for one edge less. -/
theorem ReceiveWaits.stepInFlight (h : ReceiveWaits rd s) (hb : s.busy = true) :
    ∃ t, step s = .next t ∧ ReceiveWaits rd t ∧ t.hostOps = s.hostOps ∧ t.responses = s.responses ∧
      t.edgesLeft + (if s.turn = .engine then 1 else 0) = s.edgesLeft ∧
      ∀ n, t.engineTurns n = s.passTurn.engineTurns n := by
  cases hturn : s.turn with
  | engine =>
    obtain ⟨t, hs, he⟩ := step_engine_spec (engineMoves_iff.2 ⟨hb, hturn⟩)
    have hleft := he.edgesLeft h.inv.wire.passTurn (by simpa using hb)
    obtain ⟨hops, hrsp, hturns⟩ := he.keepsPortAndTurns
    refine ⟨t, hs, ?_, by simpa using hops, by simpa using hrsp, by simpa using hleft, hturns⟩
    exact {
      inv := step_blockInv h.inv hs
      notConverting := he.seq_eq.trans (by simpa using h.notConverting)
      legal := h.legal
      port := by simpa [State.command, hops] using h.port
      pending := he.bytePending.trans (by simpa [State.bytePending] using h.pending) }
  | sequencer =>
    have hs := step_of_hold (.inl ⟨h.notConverting, rd, h.legal, command_decodes_receive h.legal h.port⟩) hb
      (engineMoves_of_sequencer hturn)
    refine ⟨_, hs, ?_, rfl, rfl, rfl, fun n => by rw [passTurn_of_busy hb]; rfl⟩
    exact {
      inv := step_blockInv h.inv hs
      notConverting := h.notConverting
      legal := h.legal
      port := h.port
      pending := h.pending }

theorem ReceiveWaits.returnsWithin {n : Nat} (h : ReceiveWaits rd s) (hturns : s.edgesLeft ≤ s.engineTurns n) :
    ReturnsWithin (n + 1) s := by
  induction n generalizing s with
  | zero =>
    have hb : s.busy = false := h.inv.wire.quiet_iff_edgesLeft.2 (Nat.le_zero.1 hturns)
    exact h.returnsAtOnce hb
  | succ n ih =>
    cases hb : s.busy with
    | false => exact (h.returnsAtOnce hb).mono (by omega)
    | true =>
      obtain ⟨t, hs, ht, hops, hrsp, hleft, hrest⟩ := h.stepInFlight hb
      rw [engineTurns_succ hb, ← hrest] at hturns
      exact .of_step hs hops hrsp (ih ht (by omega))

end ReceiveWaits

/-! ### One byte and the frame (R69, R83) -/

theorem withPort_self (hq : s.seq = 0#4) : s = s.withPort ⟨0#4, s.hostOps, s.responses⟩ := by
  rw [← hq]
  rfl

theorem shiftLeft_seven (b : Byte) : b <<< 7 = b.extractLsb' 0 1 ++ 0#7 := by
  revert b
  decide

end Sys2Proof.Machine

namespace Sys2Proof

open Sys2Proof.Machine

/-- Settles O40: each effect on the wires and the shift path keeps the invariant. -/
theorem stepKeepsWireInvariants : Obligations.StepKeepsWireInvariants :=
  fun _ _ h hs => step_wireInv h hs

/-- Settles O45, an effect at a time: a byte accepted brings eight falling edges, an edge is counted as it comes. -/
theorem stepKeepsEdgeCount : Obligations.StepKeepsEdgeCount := by
  intro s t _ h hs
  obtain ⟨u, c, he, rfl⟩ := step_effect hs
  exact (he.edgeInv h).congr rfl rfl rfl rfl rfl rfl

/-- Settles O10: the edge ENG takes under the mode 0 invariants; with `BUSY` = 0, an effect at a time. -/
theorem engineStepsWhileBusy : Obligations.EngineStepsWhileBusy := by
  refine ⟨fun s hw hb hturn => ?_, fun s t hb hs => ?_⟩
  · obtain ⟨t, hs, he⟩ := step_engine_spec (engineMoves_iff.2 ⟨hb, hturn⟩)
    have hedge := he.isEdge hw.passTurn (by simpa using hb)
    exact ⟨t, hs, by simpa using hedge⟩
  · obtain ⟨u, c, he, rfl⟩ := step_effect hs
    exact (he.noEdge hb :)

/-- Settles O28: the acceptance and then a frame along the ports of the nine sub-steps. -/
theorem convertRunsWholeFrame : Obligations.ConvertRunsWholeFrame := by
  intro s r1 r2 r3 ts1 ts2 ts3 turns ms ws hcs hclock hb hf hq hts1 hts2 hts3 hops hturns hmiso
  have hidle : s.idle = true := by simp [State.idle, State.bytePending, hcs, hb, hf]
  have hready : ByteReady r1 (bitsOnWire r2 ++ (bitsOnWire r3 ++ ms)) ts1 (ts2 ++ (ts3 ++ turns)) s :=
    ⟨hb, hf, hclock, hts1, by simpa using hturns, by simpa using hmiso⟩
  have hstart : s = s.withPort ⟨0#4, encode .convert :: ws, s.responses⟩ := by rw [← hops]; exact withPort_self hq
  have hsteps : 10 + ts1.length + ts2.length + ts3.length = 9 + ts1.length + ts2.length + ts3.length + 1 := by omega
  have hconvert := (run_succ_of_next (step_of_accepted hidle)).trans
    (run_frame (takesFrame_subSteps s.channelByte r1 r2 r3 (encode .convert :: ws) s.responses) hready hts2 hts3)
  rw [← hstart] at hconvert
  rw [hsteps, hconvert]
  simp [afterFrame, State.withPort, hcs, hclock, hb, hf, hq]

/-- Settles O35: a transmit and a receive from the host, with the byte's edges between them. -/
theorem byteLevelLaw : Obligations.ByteLevelLaw := by
  intro s b r rd ts turns ms ws hrd hb hf hclock hq hts hops hturns hmiso
  have hready : ByteReady r ms ts turns s := ⟨hb, hf, hclock, hts, hturns, hmiso⟩
  have hstart : s = s.withPort ⟨0#4, encode (.transmit b) :: encode (.receive rd) :: ws, s.responses⟩ := by
    rw [← hops]; exact withPort_self hq
  have hxfer := run_xfer (takesXfer_operations (ch := s.channelByte) (b := b) (r := r) (ws := ws)
    (vs := s.responses) hrd) hready rfl
  rw [← hstart] at hxfer
  rw [hxfer]
  simp [afterXfer, afterTransmit, returnByte_eq, afterByte, State.emit, State.withPort, byteWave, bitsOnWire,
    shiftLeft_seven, zext10_eq_append, hb, hf, hclock, hq]

/-- Settles O36: an edge is one of those left, and with none left `BUSY` is 0. -/
theorem everyEdgeBringsCompletionNearer : Obligations.EveryEdgeBringsCompletionNearer := by
  intro s h hm
  have hb := engineMoves_busy hm
  obtain ⟨t, hs, he⟩ := step_engine_spec hm
  have hleft : t.edgesLeft + 1 = s.edgesLeft := by
    simpa using he.edgesLeft h.wire.passTurn (by simpa using hb)
  refine ⟨h.wire.edgesLeft_pos hb, edgesLeft_le s, t, hs, hleft, ?_⟩
  rw [(step_wireInv h.wire hs).quiet_iff_edgesLeft]
  omega

/-- Settles O37: while the byte is in flight each step keeps the `RECEIVE` waiting, for as many edges as ENG needs
turns. -/
theorem receiveReturnsOnceEngineHasTurns : Obligations.ReceiveReturnsOnceEngineHasTurns :=
  fun _ _ _ hinv hq hrd hc hp hturns => ReceiveWaits.returnsWithin ⟨hinv, hq, hrd, hc, hp⟩ hturns

/-- Settles O38: a hold lasts for all of SEQ's turns, whoever issued the receive. -/
theorem holdIsKeptWithoutEngine : Obligations.HoldIsKeptWithoutEngine := by
  intro n s hb hhold hturns
  have hh : SeqHolds s :=
    hhold.imp_left fun ⟨hq, rd, hrd, hc⟩ => ⟨hq, rd, hrd, command_decodes_receive hrd hc⟩
  rw [run_of_hold hb hh hturns, nextTurn_iterate]

/-- Settles O13: the acceptance of a byte and its one precondition. -/
theorem transmitLoadsShiftPath : Obligations.TransmitLoadsShiftPath := by
  refine fun s b => ⟨fun hb hf => ?_, fun hp => ?_⟩
  · have hdone : transmitByte b s = .done none (s.acceptByte b) :=
      transmitByte_done.2 ⟨bytePending_eq_false.2 ⟨hb, hf⟩, rfl, rfl⟩
    simp only [exec, execTransmit, hdone]
    rfl
  · have hrefuse : transmitByte b s = .refuse .transmitWhilePending :=
      transmitByte_refuse.2 ⟨by simpa [State.bytePending] using hp, rfl⟩
    simp only [exec, execTransmit, hrefuse]
    rfl

/-- Settles O32: the rising edge with `RSR` known. -/
theorem risingEdgeSamples : Obligations.RisingEdgeSamples := by
  refine ⟨fun s r hb hc hr => ?_, fun s m ms hm => by simp [State.misoLevel, hm]⟩
  rw [(EdgeTo.rise hb hc).engineEdge_eq]
  simp [engineRise, State.emit, State.drawn, hr, shiftIn]

/-- Settles O33: the falling edge with `TSR` known; the new top bit is its bit 6. -/
theorem fallingEdgeDrives : Obligations.FallingEdgeDrives := by
  intro s x hb hc hn ht
  rw [(EdgeTo.fall hb hc hn).engineEdge_eq]
  simp only [engineFall, State.tsrBits_of_some ht, topBit_shiftOut]
  rfl

/-- Settles O34: the last edge with `RSR` known. -/
theorem lastEdgeCompletesByte : Obligations.LastEdgeCompletesByte := by
  intro s r hb hc hn hr
  rw [(EdgeTo.last hb hc hn).engineEdge_eq]
  simp [engineLast, State.emit, hr]

/-- Settles O46: the trace is empty and no byte is in flight. -/
theorem resetHasEdgeCount : Obligations.ResetHasEdgeCount := by
  constructor <;> rfl

end Sys2Proof
end

section
/-! PROOFS of the statements of spec/41_converter_protocol.md: `SELECT`, `DESELECT` and `ASSEMBLE` (R76, R77, R79), the
assembler (R78, R84), and the acceptance and the sub-steps of `CONVERT` (R80 to R82). -/

namespace Sys2Proof.Machine

variable {s t : State}

/-! ### The assembler (R78, R84) -/

/-- The two halves of a sample are those of the pair it is assembled from. -/
theorem assembleBytes_eq_iff (x y : Byte) (v : Sample) :
    assembleBytes x y = v ↔ x.extractLsb' 0 2 = v.extractLsb' 8 2 ∧ y = v.extractLsb' 0 8 := by
  rw [assembleBytes_eq_append]
  constructor
  · rintro rfl
    exact ⟨BitVec.extractLsb'_append_eq_left.symm, BitVec.extractLsb'_append_eq_right.symm⟩
  · rintro ⟨hx, rfl⟩
    rw [hx]
    exact (BitVec.extractLsb'_append_extractLsb'_eq_extractLsb' rfl).trans BitVec.extractLsb'_eq_self

theorem toNat_assembleBytes (x y : Byte) : (assembleBytes x y).toNat = 256 * (x.toNat % 4) + y.toNat := by
  rw [assembleBytes_eq_append, BitVec.toNat_append, ← Nat.shiftLeft_add_eq_or_of_lt y.isLt]
  simp [Nat.shiftLeft_eq, Nat.mul_comm]

/-- Two low bits are fixed in one byte of every four. -/
theorem countP_lowBits (c : BitVec 2) :
    ((List.range 256).countP fun n => (BitVec.ofNat 8 n).extractLsb' 0 2 == c) = 64 := by
  have hlow : ∀ n : Nat, (BitVec.ofNat 8 n).extractLsb' 0 2 = c ↔ n ≡ c.toNat [MOD 4] := by
    intro n
    rw [← BitVec.toNat_inj, Nat.ModEq, Nat.mod_eq_of_lt c.isLt]
    simp
  calc ((List.range 256).countP fun n => (BitVec.ofNat 8 n).extractLsb' 0 2 == c)
      = Nat.count (· ≡ c.toNat [MOD 4]) 256 := by simp [Nat.count, ← hlow, beq_eq_decide]
    _ = 64 := by simp [Nat.count_modEq_card]

/-! ### Which sub-step is carried out, and which is refused (R81, R92) -/

theorem convertAction_transmit {k : BitVec 4} {b : Byte}
    (hk : (k = 2#4 ∧ b = startByte) ∨ (k = 4#4 ∧ b = s.channelByte) ∨ (k = 6#4 ∧ b = fillerByte)) :
    convertAction k s = some (transmitByte b s) := by
  obtain ⟨rfl, rfl⟩ | ⟨rfl, rfl⟩ | ⟨rfl, rfl⟩ := hk <;> rfl

theorem convertAction_receive {k : BitVec 4} {rd : BitVec 2}
    (hk : (k = 3#4 ∧ rd = 0#2) ∨ (k = 5#4 ∧ rd = 2#2) ∨ (k = 7#4 ∧ rd = 3#2)) :
    convertAction k s = some (receiveByte rd s) := by
  obtain ⟨rfl, rfl⟩ | ⟨rfl, rfl⟩ | ⟨rfl, rfl⟩ := hk <;> rfl

theorem exists_convertAction_transmit {k : BitVec 4} (hk : k = 2#4 ∨ k = 4#4 ∨ k = 6#4) (s : State) :
    ∃ b, convertAction k s = some (transmitByte b s) := by
  obtain rfl | rfl | rfl := hk <;> exact ⟨_, rfl⟩

theorem exists_convertAction_receive {k : BitVec 4} (hk : k = 3#4 ∨ k = 5#4 ∨ k = 7#4) (s : State) :
    ∃ rd, convertAction k s = some (receiveByte rd s) := by
  obtain rfl | rfl | rfl := hk <;> exact ⟨_, rfl⟩

theorem convertStep_of_action {a : Attempt} (ha : convertAction s.seq s = some a) :
    convertStep s = a.asSubStep s := by
  simp only [convertStep, ha]

theorem convertStep_refused_of_action {a : Attempt} {r : Refusal} (ha : convertAction s.seq s = some a) :
    convertStep s = .refused r ↔ a = .refuse r := by
  rw [convertStep_of_action ha, asSubStep_refused]

/-- A number that is no sub-step leaves the state as it is. -/
theorem convertStep_still (hk : s.seq = 0#4 ∨ 9#4 < s.seq) : convertStep s = .next s := by
  have hnone : convertAction s.seq s = none := by
    have hrange : s.seq.toNat = 0 ∨ 9 < s.seq.toNat := by bv_omega
    unfold convertAction
    split <;> simp_all
  simp only [convertStep, hnone]

/-- The converse of `convertStep_next`: `SubStepTo` is what a sub-step does. -/
theorem SubStepTo.convertStep_eq (h : SubStepTo s t) : convertStep s = .next t := by
  cases h with
  | still hk => exact convertStep_still hk
  | held hk hb =>
    obtain ⟨rd, ha⟩ := exists_convertAction_receive hk s
    rw [convertStep_of_action ha, receiveByte_hold.2 hb]
    rfl
  | select hq =>
    rw [convertStep_of_action (congrArg (convertAction · s) hq), asSubStep_next]
    simp [assertSelect, hq]
  | transmit b hk hp =>
    have h9 : s.seq ≠ 9#4 := by bv_omega
    rw [convertStep_of_action (convertAction_transmit hk), asSubStep_next]
    exact .inr (.inr ⟨_, _, transmitByte_done.2 ⟨hp, rfl, rfl⟩, h9, rfl⟩)
  | receive rd hk hb hf =>
    have h9 : s.seq ≠ 9#4 := by bv_omega
    rw [convertStep_of_action (convertAction_receive hk), asSubStep_next]
    exact .inr (.inr ⟨_, _, receiveByte_done.2 ⟨hb, hf, rfl, rfl⟩, h9, rfl⟩)
  | deselect hq =>
    rw [convertStep_of_action (congrArg (convertAction · s) hq), asSubStep_next]
    simp [deassertSelect, hq]
  | assemble x y hq hx hy =>
    rw [convertStep_of_action (congrArg (convertAction · s) hq), asSubStep_next]
    exact .inr (.inl ⟨_, _, assembleResult_done.2 ⟨x, y, hx, hy, rfl, rfl⟩, hq, rfl⟩)

/-- Why a sub-step of `CONVERT` is refused: the precondition of the byte primitive or of the assembler fails. -/
inductive SubStepRefused (s : State) : Refusal → Prop
  | transmit : s.seq = 2#4 ∨ s.seq = 4#4 ∨ s.seq = 6#4 → s.bytePending = true →
      SubStepRefused s .transmitWhilePending
  | receive : s.seq = 3#4 ∨ s.seq = 5#4 ∨ s.seq = 7#4 → s.bytePending = false →
      SubStepRefused s .receiveWithoutTransmit
  | assemble : s.seq = 9#4 → s.b2 = none ∨ s.b3 = none → SubStepRefused s .unwrittenRegister

theorem convertStep_refused {r : Refusal} : convertStep s = .refused r ↔ SubStepRefused s r := by
  constructor
  · intro h
    obtain ⟨-, ha⟩ | ⟨b, hk, ha⟩ | ⟨rd, hk, ha⟩ | ⟨-, ha⟩ | ⟨hk, ha⟩ | ⟨hk, -⟩ := convertAction_cases s.seq s
    · cases (convertStep_refused_of_action ha).1 h
    · obtain ⟨hp, rfl⟩ := transmitByte_refuse.1 ((convertStep_refused_of_action ha).1 h)
      exact .transmit (hk.imp And.left (Or.imp And.left And.left)) hp
    · obtain ⟨hp, rfl⟩ := receiveByte_refuse.1 ((convertStep_refused_of_action ha).1 h)
      exact .receive (hk.imp And.left (Or.imp And.left And.left)) hp
    · cases (convertStep_refused_of_action ha).1 h
    · obtain ⟨hnone, rfl⟩ := assembleResult_refuse.1 ((convertStep_refused_of_action ha).1 h)
      exact .assemble hk hnone
    · cases (convertStep_still hk).symm.trans h
  · intro h
    cases h with
    | transmit hk hp =>
      obtain ⟨b, ha⟩ := exists_convertAction_transmit hk s
      exact (convertStep_refused_of_action ha).2 (transmitByte_refuse.2 ⟨hp, rfl⟩)
    | receive hk hp =>
      obtain ⟨rd, ha⟩ := exists_convertAction_receive hk s
      exact (convertStep_refused_of_action ha).2 (receiveByte_refuse.2 ⟨hp, rfl⟩)
    | assemble hq hnone =>
      have ha : convertAction s.seq s = some (assembleResult s) := congrArg (convertAction · s) hq
      exact (convertStep_refused_of_action ha).2 (assembleResult_refuse.2 ⟨hnone, rfl⟩)

/-! ### `CONVERT` is never refused midway (R80) -/

/-- The invariant is the precondition of every sub-step. -/
theorem SeqInv.not_subStepRefused (h : SeqInv s) {r : Refusal} : ¬ SubStepRefused s r := by
  intro hr
  cases hr with
  | transmit hk hp => simp [h.free (by bv_omega)] at hp
  | receive hk hp => simp [h.pending hk] at hp
  | assemble hq hnone =>
    have hb2 := h.b2Written (by simp [hq])
    have hb3 := h.b3Written (by simp [hq])
    obtain hnone | hnone := hnone
    · simp [hnone] at hb2
    · simp [hnone] at hb3

/-! ### A sub-step is the operation of the table (R81) -/

/-- The table of R81: sub-step `k`, from 1 to 8, carries out the operation `i`; `ch` is the channel byte. -/
def TableOperation (ch : Byte) (k : BitVec 4) (i : Instr) : Prop :=
  (k = 1#4 ∧ i = .select) ∨ (k = 2#4 ∧ i = .transmit 0x01#8) ∨ (k = 3#4 ∧ i = .receive 0#2) ∨
    (k = 4#4 ∧ i = .transmit ch) ∨ (k = 5#4 ∧ i = .receive 2#2) ∨
    (k = 6#4 ∧ i = .transmit 0x00#8) ∨ (k = 7#4 ∧ i = .receive 3#2) ∨ (k = 8#4 ∧ i = .deselect)

/-- With no byte in flight, where the operation of the table can go the sub-step goes too, but for the port. -/
theorem OperationTo.subStep {k : BitVec 4} {i : Instr} (h : OperationTo s i t)
    (hk : TableOperation s.channelByte k i) (hq : s.seq = k)
    (hb : s.busy = false) :
    SubStepTo s { t with seq := k + 1#4, hostOps := s.hostOps, responses := s.responses } := by
  subst hq
  cases h with
  | held _ _ hb' => simp [hb] at hb'
  | select =>
    have hq : s.seq = 1#4 := by simpa [TableOperation] using hk
    rw [hq]
    exact .select hq
  | deselect =>
    have hq : s.seq = 8#4 := by simpa [TableOperation] using hk
    rw [hq]
    exact .deselect hq
  | transmit b hp => exact .transmit b (by simpa [TableOperation, startByte, fillerByte] using hk) hp
  | receive rd hrd hb hf =>
    have h := SubStepTo.receive rd (by simpa [TableOperation] using hk) hb hf
    rw [returnByte_eq] at h ⊢
    exact h
  | assemble => simp [TableOperation] at hk
  | accept => simp [TableOperation] at hk

/-! ### The words of the host during a `CONVERT` (R82) -/

/-- `s` with the host having issued the words `ws`. -/
def State.withHostOps (ws : List Cmd) (s : State) : State := { s with hostOps := ws }

section WithHostOps

variable (ws : List Cmd)

theorem passTurn_withHostOps (s : State) : (s.withHostOps ws).passTurn = s.passTurn.withHostOps ws := by
  unfold State.passTurn State.withHostOps
  split <;> rfl

theorem EdgeTo.withHostOps (h : EdgeTo s t) : EdgeTo (s.withHostOps ws) (t.withHostOps ws) := by
  cases h with
  | rise hb hs => exact .rise hb hs
  | fall hb hs hn => exact .fall hb hs hn
  | last hb hs hn => exact .last hb hs hn
  | still h => exact .still h

theorem SubStepTo.withHostOps (hq : s.seq ≠ 0#4) (h : SubStepTo s t) :
    SubStepTo (s.withHostOps ws) (t.withHostOps (if t.seq = 0#4 then ws.tail else ws)) := by
  cases h with
  | still hk => rw [if_neg hq]; exact .still hk
  | held hk hb => rw [if_neg hq]; exact .held hk hb
  | select hk => exact .select hk
  | transmit b hk hp =>
    rw [if_neg (by bv_omega)]
    exact .transmit b hk hp
  | receive rd hk hb hf =>
    rw [if_neg (show s.seq + 1#4 ≠ 0#4 by bv_omega)]
    have h := SubStepTo.receive (s := s.withHostOps ws) rd hk hb hf
    rw [returnByte_eq] at h ⊢
    exact h
  | deselect hk => exact .deselect hk
  | assemble x y hk hx hy => exact .assemble x y hk hx hy

theorem SubStepRefused.withHostOps {r : Refusal} (h : SubStepRefused s r) : SubStepRefused (s.withHostOps ws) r := by
  cases h with
  | transmit hk hp => exact .transmit hk hp
  | receive hk hp => exact .receive hk hp
  | assemble hk hnone => exact .assemble hk hnone

/-- A refusal does not depend on the words; where a sub-step is carried out, the ninth takes off the first. -/
theorem convertStep_withHostOps (hq : s.seq ≠ 0#4) : convertStep (s.withHostOps ws)
    = onNext (fun t => t.withHostOps (if t.seq = 0#4 then ws.tail else ws)) (convertStep s) := by
  cases hs : convertStep s with
  | next t => exact ((convertStep_next hs).withHostOps ws hq).convertStep_eq
  | refused r => exact convertStep_refused.2 ((convertStep_refused.1 hs).withHostOps ws)
  | fault r => exact nomatch r

end WithHostOps

end Sys2Proof.Machine

namespace Sys2Proof

open Sys2Proof.Machine

/-- Settles O18: the sample is the two low bits of the second byte above the third, and one byte in four has those
two bits. -/
theorem assemblerIsOnto : Obligations.AssemblerIsOnto := by
  refine fun v => ⟨fun x y => assembleBytes_eq_iff x y v, ?_⟩
  rw [← countP_lowBits (v.extractLsb' 8 2)]
  refine List.countP_congr fun n _ => ?_
  simp [assembleBytes_eq_iff]

/-- Settles O25: what the operation of the table comes to, the sub-step comes to; a `RECEIVE` of the table holds as
the host's own does. -/
theorem convertSubSteps : Obligations.ConvertSubSteps := by
  refine fun s => ⟨fun k i t hk hq hb h => ?_, fun t hq hb h => ?_, fun hk hb hm => ?_⟩
  · have hsub := (exec_next h).subStep hk hq hb
    have hq0 : s.seq ≠ 0#4 := by bv_omega
    rw [step_of_subStep (engineMoves_of_quiet hb) hq0, passTurn_of_quiet hb, hsub.convertStep_eq]
  · cases exec_next h with
    | assemble x y hx hy =>
      have hq0 : s.seq ≠ 0#4 := by simp [hq]
      rw [step_of_subStep (engineMoves_of_quiet hb) hq0, passTurn_of_quiet hb]
      exact (SubStepTo.assemble x y hq hx hy).convertStep_eq
  · exact step_of_hold (.inr hk) hb hm

/-- Settles O26: neither an edge of ENG nor a sub-step reads the words, and of these the ninth sub-step alone takes one
off. -/
theorem convertIsAtomic : Obligations.ConvertIsAtomic := by
  intro s ws hq
  change step (s.withHostOps ws)
    = onNext (fun t => t.withHostOps (if t.seq = 0#4 then ws.tail else ws)) (step s)
  cases hm : s.engineMoves with
  | true =>
    obtain ⟨t, ht, he⟩ := step_engine_spec hm
    have hq' : t.seq ≠ 0#4 := by simpa [he.seq_eq] using hq
    rw [step_of_engine (s := s.withHostOps ws) hm, passTurn_withHostOps, (he.withHostOps ws).engineEdge_eq, ht]
    simp [onNext, hq']
  | false =>
    have hq' : s.passTurn.seq ≠ 0#4 := by simpa using hq
    rw [step_of_subStep hm hq, step_of_subStep (s := s.withHostOps ws) hm hq, passTurn_withHostOps,
      convertStep_withHostOps ws hq']

/-- Settles O27: a step of ENG is never refused, and the invariant rules out each refusal of a sub-step. -/
theorem convertIsNeverRefusedMidway : Obligations.ConvertIsNeverRefusedMidway := by
  intro s h hq
  cases hm : s.engineMoves with
  | true =>
    obtain ⟨t, ht, -⟩ := step_engine_spec hm
    exact ⟨t, ht⟩
  | false =>
    rw [step_of_subStep hm hq]
    cases hs : convertStep s.passTurn with
    | next t => exact ⟨t, rfl⟩
    | refused r => exact absurd (convertStep_refused.1 hs) h.sequencer.passTurn.not_subStepRefused
    | fault r => exact nomatch r

/-- Settles O11: `SELECT` has no precondition. -/
theorem selectDrivesLineLow : Obligations.SelectDrivesLineLow := fun _ => rfl

/-- Settles O12: `DESELECT` has no precondition. -/
theorem deselectDrivesLineHigh : Obligations.DeselectDrivesLineHigh := fun _ => rfl

/-- Settles O15: with both registers written the join is returned, with one unwritten the attempt is refused. -/
theorem assembleJoinsRegisters : Obligations.AssembleJoinsRegisters := by
  refine fun s => ⟨fun x y hx hy => ?_, fun hnone => ?_⟩
  · rw [exec_assemble hx hy, assembleBytes_eq_append]
    rfl
  · simp only [exec, execAssemble, asOperation_refused]
    exact assembleResult_refuse.2 ⟨hnone, rfl⟩

/-- Settles O16: the acceptance tests whether the block is idle, and that is all it tests. -/
theorem convertAcceptedWhenIdle : Obligations.ConvertAcceptedWhenIdle := by
  refine fun s => ⟨fun hcs hb hf => if_pos ?_, fun hbusy => if_neg ?_⟩
  · exact idle_iff.2 ⟨hcs, bytePending_eq_false.2 ⟨hb, hf⟩⟩
  · rw [idle_iff, bytePending_eq_false]
    rintro ⟨hcs, hb, hf⟩
    simp [hcs, hb, hf] at hbusy

/-- Settles O17: the bits and the value of the join; a byte `m` clear in bits 1:0 leaves those of `b2` alone. -/
theorem assemblerFormula : Obligations.AssemblerFormula := by
  refine fun x y => ⟨rfl, assembleBytes_eq_append x y, toNat_assembleBytes x y, ?_, fun m hm => ?_⟩
  · exact Nat.le_of_lt_succ (assembleBytes x y).isLt
  · have hclear : m.extractLsb' 0 2 = 0#2 := by
      calc m.extractLsb' 0 2 = (m &&& 0x03#8).extractLsb' 0 2 := by
            rw [BitVec.extractLsb'_and]
            exact BitVec.and_allOnes.symm
        _ = 0#2 := by rw [hm]; rfl
    simp [assembleBytes_eq_append, BitVec.extractLsb'_xor, hclear]

end Sys2Proof
end

section
/-! PROOFS of the statements of spec/60_exceptions.md: when a step is refused, and why (R91, R92). -/

namespace Sys2Proof.Machine

variable {s : State} {r : Refusal}

/-! ### When the operation at the command port is refused -/

theorem not_idle_iff : s.idle = false ↔ s.csN = false ∨ s.busy = true ∨ s.rxFresh = true := by
  simp [State.idle, State.bytePending, imp_iff_not_or]

theorem exec_transmit_refused {b : Byte} :
    exec (.transmit b) s = .refused r ↔ s.bytePending = true ∧ r = .transmitWhilePending :=
  asOperation_refused.trans transmitByte_refuse

theorem exec_receive_refused {rd : BitVec 2} (hrd : rd ≠ 1#2) :
    exec (.receive rd) s = .refused r ↔ s.bytePending = false ∧ r = .receiveWithoutTransmit := by
  rw [exec_receive hrd, asOperation_refused, receiveByte_refuse]

theorem exec_assemble_refused :
    exec .assemble s = .refused r ↔ (s.b2 = none ∨ s.b3 = none) ∧ r = .unwrittenRegister :=
  asOperation_refused.trans assembleResult_refuse

theorem exec_convert_refused : exec .convert s = .refused r ↔ s.idle = false ∧ r = .convertNotIdle := by
  cases hi : s.idle with
  | true => simp [exec, execConvert, hi]
  | false => simpa [exec, execConvert, hi] using eq_comm

/-- The closed list of R92: why the word at the command port, as it decodes, is refused. -/
inductive CommandRefused (s : State) : Decoded → Refusal → Prop
  | reserved : CommandRefused s .reservedCommand .reservedCommand
  | transmit (b : Byte) : s.busy = true ∨ s.rxFresh = true →
      CommandRefused s (.op (.transmit b)) .transmitWhilePending
  | receive (rd : BitVec 2) : s.busy = false → s.rxFresh = false →
      CommandRefused s (.op (.receive rd)) .receiveWithoutTransmit
  | assemble : s.b2 = none ∨ s.b3 = none → CommandRefused s (.op .assemble) .unwrittenRegister
  | convert : s.csN = false ∨ s.busy = true ∨ s.rxFresh = true →
      CommandRefused s (.op .convert) .convertNotIdle

/-- The list with one clause for each reason. -/
theorem commandRefused_iff {d : Decoded} : CommandRefused s d r ↔
    (d = .reservedCommand ∧ r = .reservedCommand) ∨
    (∃ b, d = .op (.transmit b) ∧ (s.busy = true ∨ s.rxFresh = true) ∧ r = .transmitWhilePending) ∨
    (∃ rd, d = .op (.receive rd) ∧ s.busy = false ∧ s.rxFresh = false ∧ r = .receiveWithoutTransmit) ∨
    (d = .op .assemble ∧ (s.b2 = none ∨ s.b3 = none) ∧ r = .unwrittenRegister) ∨
    (d = .op .convert ∧ (s.csN = false ∨ s.busy = true ∨ s.rxFresh = true) ∧ r = .convertNotIdle) := by
  constructor
  · intro h
    cases h with
    | reserved => exact .inl ⟨rfl, rfl⟩
    | transmit b hp => exact .inr (.inl ⟨b, rfl, hp, rfl⟩)
    | receive rd hb hf => exact .inr (.inr (.inl ⟨rd, rfl, hb, hf, rfl⟩))
    | assemble hnone => exact .inr (.inr (.inr (.inl ⟨rfl, hnone, rfl⟩)))
    | convert hidle => exact .inr (.inr (.inr (.inr ⟨rfl, hidle, rfl⟩)))
  · rintro (⟨rfl, rfl⟩ | ⟨b, rfl, hp, rfl⟩ | ⟨rd, rfl, hb, hf, rfl⟩ | ⟨rfl, hnone, rfl⟩ | ⟨rfl, hidle, rfl⟩)
    · exact .reserved
    · exact .transmit b hp
    · exact .receive rd hb hf
    · exact .assemble hnone
    · exact .convert hidle

/-- What the list reads, the choice of an agent does not touch. -/
theorem commandRefused_passTurn {d : Decoded} : CommandRefused s.passTurn d r ↔ CommandRefused s d r := by
  simp [commandRefused_iff]

/-- `rd` = 1, which no word decodes to, is the one operand outside the list (R51). -/
theorem exec_refused {i : Instr} (hi : i.wellFormed = true) :
    exec i s = .refused r ↔ CommandRefused s (.op i) r := by
  rw [commandRefused_iff]
  cases i with
  | select => simp [exec, execSelect, assertSelect, asOperation_refused]
  | deselect => simp [exec, execDeselect, deassertSelect, asOperation_refused]
  | transmit b => simp [exec_transmit_refused, State.bytePending]
  | receive rd =>
    have hrd : rd ≠ 1#2 := bne_iff_ne.1 hi
    simp [exec_receive_refused hrd, State.bytePending, and_assoc]
  | assemble => simp [exec_assemble_refused]
  | convert => simp [exec_convert_refused, not_idle_iff]

/-! ### When a step is refused -/

/-- Where neither ENG nor a `CONVERT` in progress has the step, the word at the command port decides. -/
theorem step_refused_of_port (hm : s.engineMoves = false) (hq : s.seq = 0#4) :
    step s = .refused r ↔ ∃ w, s.command = some w ∧ CommandRefused s (decode w) r := by
  cases hc : s.command with
  | none => simp [step_of_idlePort hm hq hc]
  | some w =>
    have hw : step s = .refused r ↔ CommandRefused s (decode w) r := by
      cases hd : decode w with
      | reservedCommand => simpa [step_of_reserved hm hq hc hd, commandRefused_iff] using eq_comm
      | op i =>
        rw [step_of_operation hm hq hc hd, exec_refused (eq_encode_of_decode hd).1, commandRefused_passTurn]
    simpa using hw

/-- Under the invariant neither an edge of ENG nor a sub-step of `CONVERT` is refused. -/
theorem BlockInv.of_step_refused (h : BlockInv s) (hs : step s = .refused r) :
    s.engineMoves = false ∧ s.seq = 0#4 := by
  constructor
  · by_contra hm
    obtain ⟨t, ht, -⟩ := step_engine_spec (Bool.eq_true_of_not_eq_false hm)
    cases hs.symm.trans ht
  · by_contra hq
    obtain ⟨t, ht⟩ := convertIsNeverRefusedMidway s h hq
    cases hs.symm.trans ht

end Sys2Proof.Machine

namespace Sys2Proof

open Sys2Proof.Machine

/-- Settles O54: a refused step is not ENG's and no sub-step's, so it is that of the word at the command port. -/
theorem refusalsAreTheClosedList : Obligations.RefusalsAreTheClosedList := by
  intro s r h
  simp only [← commandRefused_iff]
  constructor
  · intro hs
    obtain ⟨hm, hq⟩ := h.of_step_refused hs
    exact ⟨hm, hq, (step_refused_of_port hm hq).1 hs⟩
  · rintro ⟨hm, hq, hw⟩
    exact (step_refused_of_port hm hq).2 hw

end Sys2Proof
end

section
/-! PROOFS of the statements of spec/70_reset_and_hazards.md: the state after reset, which operation may come first, and
the end of a run (R101, R105, R113). -/

namespace Sys2Proof.Machine

variable {s : State} {r : Refusal}

/-! ### The end of a run -/

theorem runEnded_iff : s.runEnded = true ↔ s.hostOps = [] ∧ s.busy = false ∧ s.seq = 0#4 := by
  simp [State.runEnded, State.quiescent]

theorem command_eq_none : s.command = none ↔ s.hostOps = [] := List.head?_eq_none_iff

/-! ### An outcome is a next state or a refusal -/

@[simp] theorem refusalOf_eq_some {o : Outcome} : refusalOf o = some r ↔ o = .refused r := by
  cases o <;> simp [refusalOf]

/-- The block has no fault (R91). -/
theorem nextOf_isSome (o : Outcome) : (nextOf o).isSome = (refusalOf o).isNone := by
  cases o with
  | next t => rfl
  | refused r => rfl
  | fault f => exact nomatch f

/-! ### The first operation after reset -/

/-- After reset ENG has no step and no `CONVERT` is in progress, so the first word decides alone. -/
theorem step_reset_refused {i : Instr} (hi : i.wellFormed = true) (ws : List Cmd) :
    step { State.reset with hostOps := encode i :: ws } = .refused r
      ↔ CommandRefused { State.reset with hostOps := encode i :: ws } (.op i) r := by
  rw [step_of_encoded hi rfl rfl rfl, exec_refused hi]

end Sys2Proof.Machine

namespace Sys2Proof

open Sys2Proof.Machine

/-- Settles O56: an ended run stands at an idle port with no agent's choice to take; each part of an end fails where the
second clause's condition holds. -/
theorem endedRunStaysEnded : Obligations.EndedRunStaysEnded := by
  refine ⟨fun s hend => ?_, fun s hgo => ?_⟩
  · obtain ⟨hops, hb, hq⟩ := runEnded_iff.1 hend
    rw [step_of_idlePort (engineMoves_of_quiet hb) hq (command_eq_none.2 hops), passTurn_of_quiet hb]
  · rw [Bool.eq_false_iff, Ne, runEnded_iff]
    rintro ⟨hops, hb, hq⟩
    simp [hops, hb, hq] at hgo

/-- Settles O57: the values are those written in `State.reset`. -/
theorem resetLeavesIdleLevels : Obligations.ResetLeavesIdleLevels := by
  unfold Obligations.ResetLeavesIdleLevels
  decide

/-- Settles O58: the closed list of R92 read at the flags, the select line and the registers of reset. -/
theorem firstOperationAfterReset : Obligations.FirstOperationAfterReset := by
  refine fun i ws hi => ⟨Option.ext fun r => ?_, nextOf_isSome _⟩
  rw [refusalOf_eq_some, step_reset_refused hi, commandRefused_iff]
  cases i with
  | select => simp
  | deselect => simp
  | transmit b => simp [State.reset]
  | receive rd => simpa [State.reset] using eq_comm
  | assemble => simpa [State.reset] using eq_comm
  | convert => simp [State.reset]

end Sys2Proof
end
